-- ==== Sys2Proof/Word.lean ====
section
/-!
DEFINITION. The block's value types: 32-bit words, 64-bit counters and results, and the four-word vector that the
generator state, the seed buffer and a jump constant all are. Types only: every operation on them stands in
Sys2Proof/Machine/, bit 0 being the least significant bit of every value (00_scope.md R9).
-/

namespace Sys2Proof

/-- A 32-bit word: state words, CMD, D, the control registers, the samples (00_scope.md R7, R8). -/
abbrev Word := BitVec 32

/-- A 64-bit value: a tracker counter, or the result bus Q (00_scope.md R7, R8). -/
abbrev DWord := BitVec 64

/-- Four 32-bit words, word 0 first: S0..S3 (10_state.md R31), SEEDBUF0..3 (R33) or a 128-bit jump constant
(41_jump.md R182). As a 128-bit vector it is `{w3, w2, w1, w0}` (41_jump.md R183). -/
structure Quad where
  w0 : Word
  w1 : Word
  w2 : Word
  w3 : Word
deriving DecidableEq, Repr

/-- What the host presents in one transaction: the command word CMD and the operand word D (30_encoding.md R110). -/
structure Command where
  cmd : Word
  d : Word
deriving DecidableEq, Repr

end Sys2Proof
end

