-- ==== Sys2Proof/Syntax.lean ====
section
/-!
DEFINITION. The commands of the block as syntax: one constructor of `Instr` for each row of spec/opcode_table.json
(30_encoding.md R114), the names of the control registers (10_state.md R44) and of the tracker's counters (R51), and
the reasons for which a command word is illegal (30_encoding.md R116, R117).
-/

namespace Sys2Proof

/-- The 17 mapped control and status registers, in the order of the CSR map (10_state.md R44). -/
inductive Csr where
  | mask | shift | active | ctrl | status
  | seedbuf0 | seedbuf1 | seedbuf2 | seedbuf3
  | state0 | state1 | state2 | state3
  | imin | imax | fmin | fmax
deriving DecidableEq, Repr

/-- The tracker's two domains (43_tracker.md R230). -/
inductive Domain where
  | int
  | flt
deriving DecidableEq, Repr

/-- The two counters of a bit position: how often the bit was 1, how often 0 (10_state.md R50). -/
inductive Kind where
  | set
  | clear
deriving DecidableEq, Repr

/-- The name of one of the 128 counters: {DOM, KIND, BIT} (10_state.md R51). -/
structure CounterId where
  dom : Domain
  kind : Kind
  bit : Fin 32
deriving DecidableEq, Repr

/-- The eleven commands. A command holds the fields of CMD that its row leaves free and, where it reads D, the operand
(30_encoding.md R111, R113, R114). `a` is kept as the raw 8-bit field: a value that names no register is a legal
encoding and raises BAD_ADDR when the command runs (R116). -/
inductive Instr where
  /-- NOP, 44_control.md R270. -/
  | nop
  /-- CSRR, read the control register at address `a`, 44_control.md R272. -/
  | csrr (a : BitVec 8)
  /-- CSRW, write `d` to the control register at address `a`, 44_control.md R274. -/
  | csrw (a : BitVec 8) (d : Word)
  /-- SEED, load the state from the seed buffer, 40_generator.md R156. -/
  | seed
  /-- NEXT (`t = false`) and NEXT.T (`t = true`), 40_generator.md R160. -/
  | next (t : Bool)
  /-- JUMP, advance by 2^64 steps, 41_jump.md R186. -/
  | jump
  /-- LJUMP, advance by 2^96 steps, 41_jump.md R187. -/
  | ljump
  /-- TRKI, track the integer sample `d`, 43_tracker.md R233. -/
  | trki (d : Word)
  /-- TRKF, track the binary32 pattern `d`, 43_tracker.md R236. -/
  | trkf (d : Word)
  /-- CNTR, read the counter with index `a`, 43_tracker.md R239. -/
  | cntr (a : BitVec 8)
  /-- STCLR, clear the tracker, 43_tracker.md R241. -/
  | stclr
deriving DecidableEq, Repr

/-- Why a command word decodes to ILLEGAL, one name for each check of 30_encoding.md R116, in its order. -/
inductive Illegal where
  /-- RSVD != 0. -/
  | reservedBits
  /-- OP > 0x0A. -/
  | unknownOpcode
  /-- T = 1 on an opcode other than NEXT. -/
  | trackFlag
  /-- A != 0 on an opcode other than CSRR, CSRW and CNTR. -/
  | addressField
deriving DecidableEq, Repr

/-- What the decoder answers: a command, or ILLEGAL with the check that failed (30_encoding.md R116). -/
inductive Decoded where
  | instr (i : Instr)
  | illegal (why : Illegal)
deriving DecidableEq, Repr

end Sys2Proof
end

