-- ==== Sys2Proof/Machine/Operands.lean ====
section
/-!
DEFINITION. The operand forms of the commands: how the 8-bit field A names a control register or a counter, which
registers may be written, and which values they take (10_state.md R44, R45, R51; 44_control.md R276).
-/

namespace Sys2Proof.Machine

/-- The control register at CSR address `a`, none where the address is unmapped: 0x05..0x07 and 0x14..0xFF
(10_state.md R44). -/
def csrAt (a : BitVec 8) : Option Csr :=
  match a.toNat with
  | 0x00 => some .mask
  | 0x01 => some .shift
  | 0x02 => some .active
  | 0x03 => some .ctrl
  | 0x04 => some .status
  | 0x08 => some .seedbuf0
  | 0x09 => some .seedbuf1
  | 0x0A => some .seedbuf2
  | 0x0B => some .seedbuf3
  | 0x0C => some .state0
  | 0x0D => some .state1
  | 0x0E => some .state2
  | 0x0F => some .state3
  | 0x10 => some .imin
  | 0x11 => some .imax
  | 0x12 => some .fmin
  | 0x13 => some .fmax
  | _ => none

/-- The CSR address of a control register (10_state.md R44). -/
def csrAddress : Csr → BitVec 8
  | .mask => 0x00
  | .shift => 0x01
  | .active => 0x02
  | .ctrl => 0x03
  | .status => 0x04
  | .seedbuf0 => 0x08
  | .seedbuf1 => 0x09
  | .seedbuf2 => 0x0A
  | .seedbuf3 => 0x0B
  | .state0 => 0x0C
  | .state1 => 0x0D
  | .state2 => 0x0E
  | .state3 => 0x0F
  | .imin => 0x10
  | .imax => 0x11
  | .fmin => 0x12
  | .fmax => 0x13

/-- The registers whose access is RO: CSRW to one raises READ_ONLY (10_state.md R44, 44_control.md R274). -/
def csrReadOnly : Csr → Bool
  | .active | .status | .state0 | .state1 | .state2 | .state3 | .imin | .imax | .fmin | .fmax => true
  | .mask | .shift | .ctrl | .seedbuf0 | .seedbuf1 | .seedbuf2 | .seedbuf3 => false

/-- The values CSRW may write to a writable register: SHIFT takes 0..31 and CTRL needs D[31:1] = 0; every other value
raises BAD_VALUE (44_control.md R276). -/
def csrAccepts (c : Csr) (d : Word) : Bool :=
  match c with
  | .shift => d.ule 31
  | .ctrl => d >>> 1 == 0
  | .mask | .active | .status | .seedbuf0 | .seedbuf1 | .seedbuf2 | .seedbuf3
  | .state0 | .state1 | .state2 | .state3 | .imin | .imax | .fmin | .fmax => true

/-- The counter with the 7-bit index `i` = {DOM, KIND, BIT} (10_state.md R51). -/
def counterOfIndex (i : BitVec 7) : CounterId where
  dom := if i.getLsbD 6 then .flt else .int
  kind := if i.getLsbD 5 then .clear else .set
  bit := (i.setWidth 5).toFin

/-- The counter CNTR reads: A[6:0] is its index, and A[7] = 1 names none (43_tracker.md R239). -/
def counterAt (a : BitVec 8) : Option CounterId :=
  if a.getLsbD 7 then none else some (counterOfIndex (a.setWidth 7))

/-- The 8-bit field A that names a counter: {0, DOM, KIND, BIT} (10_state.md R51). -/
def counterAddress (c : CounterId) : BitVec 8 :=
  (if c.dom = .flt then 0x40 else 0) ||| (if c.kind = .clear then 0x20 else 0) ||| BitVec.ofNat 8 c.bit.val

end Sys2Proof.Machine
end

