-- ==== Sys2Proof/WellFormed.lean ====
section
/-!
DEFINITION. Which commands are well-formed: those whose operands pass every check that does not look at the state of
the block. Every term of `Instr` has an encoding and decodes back; a term that is not well-formed is one that the
block answers with BAD_ADDR, READ_ONLY or BAD_VALUE in every state (44_control.md R272, R274; 43_tracker.md R239).
-/

namespace Sys2Proof

/-- The operand checks, command by command: CSRR needs a mapped address (44_control.md R272); CSRW a mapped address
whose register is writable and takes the value (R274, R276); CNTR needs A[7] = 0 (43_tracker.md R239). -/
def Instr.wf : Instr → Bool
  | .nop => true
  | .csrr a => (Machine.csrAt a).isSome
  | .csrw a d =>
    match Machine.csrAt a with
    | none => false
    | some c => !Machine.csrReadOnly c && Machine.csrAccepts c d
  | .seed => true
  | .next _ => true
  | .jump => true
  | .ljump => true
  | .trki _ => true
  | .trkf _ => true
  | .cntr a => !a.getLsbD 7
  | .stclr => true

/-- A command whose operands pass every check that does not depend on the state. -/
abbrev Instr.WellFormed (i : Instr) : Prop := i.wf = true

end Sys2Proof
end

