-- ==== Sys2Proof/Decode.lean ====
section
/-!
DEFINITION. From command words to commands and back (30_encoding.md). The decoder is total: it takes any CMD and D,
and answers a command or ILLEGAL with the check that failed. The encoder and the match and mask rows of R115 are
written from the same tables, after it.
-/

namespace Sys2Proof

/-- OP = CMD[7:0] (30_encoding.md R111). -/
def opField (cmd : Word) : BitVec 8 := cmd.extractLsb' 0 8

/-- A = CMD[15:8] (30_encoding.md R111). -/
def aField (cmd : Word) : BitVec 8 := cmd.extractLsb' 8 8

/-- T = CMD[16] (30_encoding.md R111). -/
def tField (cmd : Word) : Bool := cmd.getLsbD 16

/-- RSVD = CMD[31:17] (30_encoding.md R111). -/
def rsvdField (cmd : Word) : BitVec 15 := cmd.extractLsb' 17 15

/-- The command of an opcode with its A and T fields and operand D (30_encoding.md R114), none for 0x0B..0xFF. -/
def ofOpcode (op a : BitVec 8) (t : Bool) (d : Word) : Option Instr :=
  match op.toNat with
  | 0x00 => some .nop
  | 0x01 => some (.csrr a)
  | 0x02 => some (.csrw a d)
  | 0x03 => some .seed
  | 0x04 => some (.next t)
  | 0x05 => some .jump
  | 0x06 => some .ljump
  | 0x07 => some (.trki d)
  | 0x08 => some (.trkf d)
  | 0x09 => some (.cntr a)
  | 0x0A => some .stclr
  | _ => none

/-- The opcodes that take an A field: CSRR, CSRW and CNTR (30_encoding.md R116). -/
def takesA (op : BitVec 8) : Bool := op == 0x01 || op == 0x02 || op == 0x09

/-- Decoding, total on every command (30_encoding.md R116, its checks in its order). -/
def decode (c : Command) : Decoded :=
  if rsvdField c.cmd ≠ 0 then .illegal .reservedBits
  else match ofOpcode (opField c.cmd) (aField c.cmd) (tField c.cmd) c.d with
    | none => .illegal .unknownOpcode
    | some i =>
      if tField c.cmd && opField c.cmd != 0x04 then .illegal .trackFlag
      else if aField c.cmd != 0 && !takesA (opField c.cmd) then .illegal .addressField
      else .instr i

/-- The opcode of a command (30_encoding.md R114). -/
def Instr.opcode : Instr → BitVec 8
  | .nop => 0x00
  | .csrr _ => 0x01
  | .csrw _ _ => 0x02
  | .seed => 0x03
  | .next _ => 0x04
  | .jump => 0x05
  | .ljump => 0x06
  | .trki _ => 0x07
  | .trkf _ => 0x08
  | .cntr _ => 0x09
  | .stclr => 0x0A

/-- The A field of a command, 0 where its row fixes it (30_encoding.md R111, R114). -/
def Instr.aBits : Instr → BitVec 8
  | .csrr a => a
  | .csrw a _ => a
  | .cntr a => a
  | .nop | .seed | .next _ | .jump | .ljump | .trki _ | .trkf _ | .stclr => 0

/-- The T field of a command, 0 but for NEXT.T (30_encoding.md R111, R114). -/
def Instr.tBit : Instr → Bool
  | .next t => t
  | .nop | .csrr _ | .csrw _ _ | .seed | .jump | .ljump | .trki _ | .trkf _ | .cntr _ | .stclr => false

/-- The operand a command reads from D: CSRW, TRKI and TRKF read it, every other command ignores it
(30_encoding.md R111). -/
def Instr.operand : Instr → Option Word
  | .csrw _ d => some d
  | .trki d => some d
  | .trkf d => some d
  | .nop | .csrr _ | .seed | .next _ | .jump | .ljump | .cntr _ | .stclr => none

/-- The words of a command: CMD = {RSVD = 0, T, A, OP} and D, which is 0 where the command ignores it
(30_encoding.md R111; 95_test_vectors.md Part 3, "send 0"). -/
def encode (i : Instr) : Command where
  cmd := (0 : BitVec 15) ++ BitVec.ofBool i.tBit ++ i.aBits ++ i.opcode
  d := i.operand.getD 0

/-- One row of the match and mask table (30_encoding.md R115). -/
structure OpRow where
  mnemonic : String
  pattern : Word
  mask : Word
deriving DecidableEq, Repr

/-- The match and mask of each command (30_encoding.md R115). -/
def opTable : List OpRow :=
  [⟨"NOP", 0x00000000, 0xFFFFFFFF⟩,
   ⟨"CSRR", 0x00000001, 0xFFFF00FF⟩,
   ⟨"CSRW", 0x00000002, 0xFFFF00FF⟩,
   ⟨"SEED", 0x00000003, 0xFFFFFFFF⟩,
   ⟨"NEXT", 0x00000004, 0xFFFEFFFF⟩,
   ⟨"JUMP", 0x00000005, 0xFFFFFFFF⟩,
   ⟨"LJUMP", 0x00000006, 0xFFFFFFFF⟩,
   ⟨"TRKI", 0x00000007, 0xFFFFFFFF⟩,
   ⟨"TRKF", 0x00000008, 0xFFFFFFFF⟩,
   ⟨"CNTR", 0x00000009, 0xFFFF00FF⟩,
   ⟨"STCLR", 0x0000000A, 0xFFFFFFFF⟩]

/-- A command word matches a row when `(CMD & mask) == match` (30_encoding.md R115). -/
def OpRow.matchesWord (r : OpRow) (cmd : Word) : Bool := cmd &&& r.mask == r.pattern

/-- The mnemonic of a command, as the opcode table spells it (30_encoding.md R114). -/
def Instr.mnemonic : Instr → String
  | .nop => "NOP"
  | .csrr _ => "CSRR"
  | .csrw _ _ => "CSRW"
  | .seed => "SEED"
  | .next _ => "NEXT"
  | .jump => "JUMP"
  | .ljump => "LJUMP"
  | .trki _ => "TRKI"
  | .trkf _ => "TRKF"
  | .cntr _ => "CNTR"
  | .stclr => "STCLR"

/-- The command in a number whose bits are CMD (bits 31..0) and then D (bits 63..32). -/
def commandOfBits (w : Nat) : Command where
  cmd := BitVec.ofNat 32 w
  d := BitVec.ofNat 32 (w >>> 32)

/-- The command the decoder reads from a transaction whose bits are `w`: CMD is bits 31..0 and D, the operand word,
bits 63..32; the bits from `nbits` on are zero. None where the word is illegal. -/
def decodeTableWord (nbits w : Nat) : Option Instr :=
  match decode (commandOfBits (w % 2 ^ nbits)) with
  | .instr i => some i
  | .illegal _ => none

end Sys2Proof
end

