-- ==== Sys2Proof/Machine/State.lean ====
section
/-!
DEFINITION. The state of the block: every element of 10_state.md R30 at its width, with the reset value of R57, and
beside them the block's two ports as plain data: what the host will do next (`host`, `loop`) and the response last
presented (`response`). The block has no program counter, no memory, no interrupt state and no mode (R30, R35).
-/

namespace Sys2Proof.Machine

/-- One file of 32 counters of 64 bits, indexed by bit position (10_state.md R50). -/
abbrev CounterFile := Vector DWord 32

/-- What the tracker holds for one domain: its set and clear counters and its running min and max
(10_state.md R43, R50; 43_tracker.md R230). -/
structure Tracker where
  set : CounterFile
  clr : CounterFile
  min : Word
  max : Word
deriving DecidableEq, Repr

/-- A response: the 4-bit status ST and the 64-bit result Q (30_encoding.md R110). -/
structure Response where
  st : BitVec 4
  q : DWord
deriving DecidableEq, Repr

/-- The error codes 1..6 (60_exceptions.md R300); OK is no error and the codes 7..15 are never produced. -/
inductive ErrorCode where
  | illegal
  | badAddr
  | readOnly
  | badValue
  | unseeded
  | zeroSeed
deriving DecidableEq, Repr

/-- One thing the host does to the block. DESIGN CHOICE, notes/assumptions/1.md: the host's list of them stands in
the state, and the step takes its head. -/
inductive HostEvent where
  /-- The host presents a command and waits for its response (30_encoding.md R110). -/
  | issue (c : Command)
  /-- The host asserts reset while no command is in flight (70_reset_and_hazards.md R340). -/
  | reset
  /-- The host asserts reset while `c` is in flight, at any point of it (70_reset_and_hazards.md R341). -/
  | resetDuring (c : Command)
  /-- The host issues `c` without waiting for the response of the command before it (70_reset_and_hazards.md R351). -/
  | overlap (c : Command)
deriving DecidableEq, Repr

/-- The state of the block and its ports. Fields `gen` to `flt` are the elements of 10_state.md R30, all of them;
`host`, `loop` and `response` are the model's own. -/
structure State where
  /-- S0..S3, the generator state (R31). -/
  gen : Quad
  /-- SEEDBUF0..SEEDBUF3, the seed staging buffer (R33). -/
  seedbuf : Quad
  /-- SEEDED (R34). -/
  seeded : Bool
  /-- MASK (R37). -/
  mask : Word
  /-- SHIFT, 5 bits stored (R38). -/
  shift : BitVec 5
  /-- CTRL.TSRC (R39). -/
  tsrc : Bool
  /-- ERR, the code of the first error since reset (R41). -/
  err : BitVec 4
  /-- SETI, CLRI, IMIN and IMAX: the integer domain (R43, R50). -/
  int : Tracker
  /-- SETF, CLRF, FMIN and FMAX: the float domain (R43, R50). -/
  flt : Tracker
  /-- What the host does from here on, first event first: the rest of its command list from the index of the next
  command (R35). -/
  host : List HostEvent
  /-- The host's endless loop: what the host does over and over once `host` is done, nothing for a host that ends
  (60_exceptions.md R317). DESIGN CHOICE, notes/assumptions/19.md: an unbounded host is a list and then a loop. -/
  loop : List HostEvent
  /-- The response last presented on the response port, none when there has been none since reset
  (30_encoding.md R110, 70_reset_and_hazards.md R341). -/
  response : Option Response
deriving DecidableEq, Repr

/-- Reasons for which the block stops with a fault. There are none: every command has a response, an error is a
response too, and the block goes on executing commands (60_exceptions.md R302, R303, R306). -/
inductive Fault where
deriving DecidableEq, Repr

/-- Reasons for which the model has no run. -/
inductive Refusal where
  /-- A command without a meaning yet, named by its mnemonic. Raised by an arm of exec and by nothing else. Safe: the
  model stops where the block goes on. -/
  | notModelled (mnemonic : String)
  /-- The host issued a command without waiting for the response of the one before. Raised by the step on such an
  event: "a model refuses such a host" (70_reset_and_hazards.md R351). Safe: the spec gives no behaviour, and none can
  be claimed. -/
  | overlappingHost
deriving DecidableEq, Repr

/-- A counter file with every counter 0. -/
def CounterFile.zero : CounterFile := Vector.replicate 32 0

/-- The integer domain after reset: counters 0, IMIN 0xFFFFFFFF, IMAX 0 (10_state.md R57). -/
def Tracker.emptyInt : Tracker := ⟨CounterFile.zero, CounterFile.zero, 0xFFFFFFFF, 0x00000000⟩

/-- The float domain after reset: counters 0, FMIN +infinity, FMAX -infinity (10_state.md R57). -/
def Tracker.emptyFlt : Tracker := ⟨CounterFile.zero, CounterFile.zero, 0x7F800000, 0xFF800000⟩

/-- The block right after reset, every element at the value of 10_state.md R57. The host has done nothing yet and no
response has been presented. -/
def State.reset : State where
  gen := ⟨0, 0, 0, 0⟩
  seedbuf := ⟨1, 0, 0, 0⟩
  seeded := false
  mask := 0
  shift := 0
  tsrc := false
  err := 0
  int := Tracker.emptyInt
  flt := Tracker.emptyFlt
  host := []
  loop := []
  response := none

end Sys2Proof.Machine
end

