-- ==== Sys2Proof/Machine/Flags.lean ====
section
/-!
DEFINITION. The flag and comparison rules: the error codes, the sticky field ERR, the STATUS word (10_state.md R40,
R41; 60_exceptions.md R300) and the binary32 comparison of the float domain (43_tracker.md R238).
-/

namespace Sys2Proof.Machine

/-- The status code of a successful command (60_exceptions.md R300). -/
def okCode : BitVec 4 := 0

/-- The status code of an error (60_exceptions.md R300). -/
def errorCode : ErrorCode → BitVec 4
  | .illegal => 1
  | .badAddr => 2
  | .readOnly => 3
  | .badValue => 4
  | .unseeded => 5
  | .zeroSeed => 6

/-- ERR after an error with code `c`: the first code since reset stays (10_state.md R41). -/
def stickyErr (err c : BitVec 4) : BitVec 4 := if err = 0 then c else err

/-- The STATUS register, {24'b0, ERR, 3'b0, SEEDED} (10_state.md R40, 44_control.md R272). -/
def statusWord (err : BitVec 4) (seeded : Bool) : Word :=
  (0 : BitVec 24) ++ err ++ (0 : BitVec 3) ++ BitVec.ofBool seeded

/-- Are the four words all zero: the vector {w3, w2, w1, w0} == 0 (40_generator.md R156). -/
def allZero (q : Quad) : Bool := q.w0 == 0 && q.w1 == 0 && q.w2 == 0 && q.w3 == 0

/-- The exponent field x[30:23] of a binary32 pattern (43_tracker.md R238). -/
def fltExponent (x : Word) : BitVec 8 := x.extractLsb' 23 8

/-- The fraction field x[22:0] of a binary32 pattern (43_tracker.md R238). -/
def fltFraction (x : Word) : BitVec 23 := x.extractLsb' 0 23

/-- The magnitude x[30:0] of a binary32 pattern (43_tracker.md R238). -/
def fltMagnitude (x : Word) : BitVec 31 := x.extractLsb' 0 31

/-- The sign x[31] of a binary32 pattern, true for negative (43_tracker.md R238). -/
def fltSign (x : Word) : Bool := x.getLsbD 31

/-- isNaN (43_tracker.md R238). -/
def fltIsNaN (x : Word) : Bool := fltExponent x == 0xFF && fltFraction x != 0

/-- isZero (43_tracker.md R238). -/
def fltIsZero (x : Word) : Bool := fltMagnitude x == 0

/-- flt_lt: the IEEE 754 quiet less-than of two binary32 patterns, its tests in the order of 43_tracker.md R238. -/
def fltLt (a b : Word) : Bool :=
  if fltIsNaN a || fltIsNaN b then false
  else if fltIsZero a && fltIsZero b then false
  else match fltSign a, fltSign b with
    | false, false => (fltMagnitude a).ult (fltMagnitude b)
    | true, true => (fltMagnitude b).ult (fltMagnitude a)
    | true, false => true
    | false, true => false

end Sys2Proof.Machine
end

