-- ==== Sys2Proof/Machine/Ops.lean ====
section
/-!
DEFINITION. The shared operations of the block: arithmetic on words and four-word vectors, the step map and the output
of the generator, the jump, the mask stage, the tracker's updates, access to control registers and counters, and the
two ways a command ends, `respond` and `raise` (00_scope.md R13). Errors are this block's exceptions: `raise` is the
one operation that takes one (60_exceptions.md R302, R306), and there is no return from it (R307).
-/

namespace Sys2Proof.Machine

/-! ## Words and four-word vectors -/

/-- rotl32(x, k) for 1 <= k <= 31 (00_scope.md R10). -/
def rotl32 (x : Word) (k : Nat) : Word := (x <<< k) ||| (x >>> (32 - k))

/-- popcount(v), the number of one bits (00_scope.md R10). -/
def popcount (v : Word) : Nat := (List.range 32).countP fun k => v.getLsbD k

/-- Word `i` of a vector, 0 beyond word 3. -/
def quadWord (q : Quad) : Nat → Word
  | 0 => q.w0
  | 1 => q.w1
  | 2 => q.w2
  | 3 => q.w3
  | _ => 0

/-- Bit `k` of the 128-bit vector {w3, w2, w1, w0}: bit (k mod 32) of word (k div 32) (41_jump.md R182, R183). -/
def quadBit (q : Quad) (k : Nat) : Bool := (quadWord q (k / 32)).getLsbD (k % 32)

/-- The zero vector. -/
def quadZero : Quad := ⟨0, 0, 0, 0⟩

/-- Exclusive-or of two 128-bit vectors. -/
def quadXor (p q : Quad) : Quad := ⟨p.w0 ^^^ q.w0, p.w1 ^^^ q.w1, p.w2 ^^^ q.w2, p.w3 ^^^ q.w3⟩

/-! ## Generator Core -/

/-- The step map of xoshiro128+ (40_generator.md R151, line by line). -/
def stepGen (q : Quad) : Quad :=
  let t := q.w1 <<< 9
  let s2 := q.w2 ^^^ q.w0
  let s3 := q.w3 ^^^ q.w1
  let s1 := q.w1 ^^^ s2
  let s0 := q.w0 ^^^ s3
  let s2 := s2 ^^^ t
  let s3 := rotl32 s3 11
  ⟨s0, s1, s2, s3⟩

/-- The "plus" output S0 + S3 modulo 2^32 of the state before the step (40_generator.md R152). -/
def outGen (q : Quad) : Word := q.w0 + q.w3

/-! ## Jump Engine -/

/-- JUMP_C, the jump constant of 2^64 steps (41_jump.md R181). -/
def jumpConst : Quad := ⟨0x8764000b, 0xf542d2d3, 0x6fa035c3, 0x77f2db5b⟩

/-- LJUMP_C, the jump constant of 2^96 steps (41_jump.md R181). -/
def ljumpConst : Quad := ⟨0xb523952e, 0x0b6f099f, 0xccf5a0ef, 0x1c580662⟩

/-- The iterations k, k+1, ... of the polynomial evaluation, `n` of them: add the state to the accumulator where bit k
of the constant is set, and step the state whether or not it is (41_jump.md R184). -/
def jumpLoop (j : Quad) : (n k : Nat) → (jacc s : Quad) → Quad
  | 0, _, jacc, _ => jacc
  | n + 1, k, jacc, s => jumpLoop j n (k + 1) (if quadBit j k then quadXor jacc s else jacc) (stepGen s)

/-- jump_poly(J, S): 128 iterations from the zero accumulator (41_jump.md R184). Irreducible so that no proof unrolls
the 128 iterations by accident; Laws/Ops.lean has its equation. -/
@[irreducible] def jumpPoly (j s : Quad) : Quad := jumpLoop j 128 0 quadZero s

/-! ## Output mask stage -/

/-- fmt(raw) under a mask and a shift; with mask 0 the raw word passes unshifted (42_formatter.md R211). -/
def fmt (mask : Word) (shift : BitVec 5) (raw : Word) : Word :=
  if mask = 0 then raw else (raw >>> shift.toNat) &&& mask

/-- The active bit count popcount((0xFFFFFFFF >> SHIFT) & MASK) (42_formatter.md R213). -/
def activeCount (mask : Word) (shift : BitVec 5) : Nat :=
  popcount (((0xFFFFFFFF : Word) >>> shift.toNat) &&& mask)

/-! ## Frequency Tracker -/

/-- One domain's counters after a sample: at each of the 32 bit positions the set or the clear counter goes up by one
modulo 2^64 (43_tracker.md R231). -/
def countSample (t : Tracker) (v : Word) : Tracker :=
  { t with
    set := t.set.mapFinIdx fun k c _ => if v.getLsbD k then c + 1 else c
    clr := t.clr.mapFinIdx fun k c _ => if v.getLsbD k then c else c + 1 }

/-- Min and max after the integer sample `v`, under unsigned compare (43_tracker.md R232, R234). -/
def minmaxInt (t : Tracker) (v : Word) : Tracker :=
  { t with
    min := if v.ult t.min then v else t.min
    max := if t.max.ult v then v else t.max }

/-- minmax_flt(v): min and max after the float sample `v`, a strict update under flt_lt (43_tracker.md R235). -/
def minmaxFlt (t : Tracker) (v : Word) : Tracker :=
  { t with
    min := if fltLt v t.min then v else t.min
    max := if fltLt t.max v then v else t.max }

/-- The counters of one file and kind. -/
def trackerFile (t : Tracker) : Kind → CounterFile
  | .set => t.set
  | .clear => t.clr

/-- track_int(v) (43_tracker.md R232). -/
def State.trackInt (s : State) (v : Word) : State := { s with int := minmaxInt (countSample s.int v) v }

/-- The update of TRKF: count, then minmax_flt, in the float domain (43_tracker.md R236). -/
def State.trackFlt (s : State) (v : Word) : State := { s with flt := minmaxFlt (countSample s.flt v) v }

/-- Every counter 0 and min and max at their identities (43_tracker.md R241). -/
def State.clearTracker (s : State) : State := { s with int := Tracker.emptyInt, flt := Tracker.emptyFlt }

/-- CNT(i), one of the 128 counters (10_state.md R51). -/
def State.counter (s : State) (c : CounterId) : DWord :=
  match c.dom with
  | .int => (trackerFile s.int c.kind)[c.bit]
  | .flt => (trackerFile s.flt c.kind)[c.bit]

/-! ## Generator state -/

/-- The state words take the seed buffer and the block is seeded (40_generator.md R156). -/
def State.loadSeed (s : State) : State := { s with gen := s.seedbuf, seeded := true }

/-- The generator advances one step (40_generator.md R160). -/
def State.advance (s : State) : State := { s with gen := stepGen s.gen }

/-- The generator state is replaced by the jump accumulator (41_jump.md R185, R188). -/
def State.jumpBy (s : State) (j : Quad) : State := { s with gen := jumpPoly j s.gen }

/-- The value NEXT.T counts: the raw word, or the masked one where CTRL.TSRC = 1 (43_tracker.md R237). -/
def State.trackedWord (s : State) (raw masked : Word) : Word := if s.tsrc then masked else raw

/-! ## Control registers -/

/-- CSR(a), the 32-bit value of a control register, its unused bits zero (10_state.md R44). -/
def State.readCsr (s : State) : Csr → Word
  | .mask => s.mask
  | .shift => s.shift.setWidth 32
  | .active => BitVec.ofNat 32 (activeCount s.mask s.shift)
  | .ctrl => (BitVec.ofBool s.tsrc).setWidth 32
  | .status => statusWord s.err s.seeded
  | .seedbuf0 => s.seedbuf.w0
  | .seedbuf1 => s.seedbuf.w1
  | .seedbuf2 => s.seedbuf.w2
  | .seedbuf3 => s.seedbuf.w3
  | .state0 => s.gen.w0
  | .state1 => s.gen.w1
  | .state2 => s.gen.w2
  | .state3 => s.gen.w3
  | .imin => s.int.min
  | .imax => s.int.max
  | .fmin => s.flt.min
  | .fmax => s.flt.max

/-- The effect of CSRW on the register it names, for a value the register accepts; a read-only register is never
written (44_control.md R274). -/
def State.writeCsr (s : State) (c : Csr) (d : Word) : State :=
  match c with
  | .mask => { s with mask := d }
  | .shift => { s with shift := d.setWidth 5 }
  | .ctrl => { s with tsrc := d.getLsbD 0 }
  | .seedbuf0 => { s with seedbuf := { s.seedbuf with w0 := d } }
  | .seedbuf1 => { s with seedbuf := { s.seedbuf with w1 := d } }
  | .seedbuf2 => { s with seedbuf := { s.seedbuf with w2 := d } }
  | .seedbuf3 => { s with seedbuf := { s.seedbuf with w3 := d } }
  | .active | .status | .state0 | .state1 | .state2 | .state3 | .imin | .imax | .fmin | .fmax => s

/-! ## How a command ends -/

/-- respond(OK, q): the command completes and presents its result (00_scope.md R13, 30_encoding.md R110). -/
def State.respond (s : State) (q : DWord) : State := { s with response := some ⟨okCode, q⟩ }

/-- raise e: the command completes with the error's code and Q = 0, and changes nothing but ERR, which keeps the
first code since reset (60_exceptions.md R302, 10_state.md R41). -/
def State.raise (s : State) (e : ErrorCode) : State :=
  { s with err := stickyErr s.err (errorCode e), response := some ⟨errorCode e, 0⟩ }

/-- The outcome of a command that responds (OK, q) in state `s`. -/
def ok (s : State) (q : DWord) : Host.Outcome State Fault Refusal := .next (s.respond q)

/-- The outcome of a command that raises `e` in state `s`. -/
def fail (s : State) (e : ErrorCode) : Host.Outcome State Fault Refusal := .next (s.raise e)

/-! ## Reset -/

/-- Reset: every state element takes its reset value, a command in flight is abandoned and no response is presented
(70_reset_and_hazards.md R340, R341). What the host does next is not the block's to change. -/
def State.hardReset (s : State) : State := { State.reset with host := s.host, loop := s.loop }

end Sys2Proof.Machine
end

