-- ==== Sys2Proof/Machine/Control.lean ====
section
/-!
DEFINITION. The control commands: NOP, CSRR and CSRW (44_control.md R270, R272, R274).
-/

namespace Sys2Proof.Machine

/-- NOP (44_control.md R270). -/
def execNop (s : State) : Host.Outcome State Fault Refusal := ok s 0

/-- CSRR (44_control.md R272): Q is the register's 32 bits, zero-extended. -/
def execCsrr (a : BitVec 8) (s : State) : Host.Outcome State Fault Refusal :=
  match csrAt a with
  | none => fail s .badAddr
  | some c => ok s ((s.readCsr c).setWidth 64)

/-- CSRW (44_control.md R274), its checks in the order of 60_exceptions.md R304. -/
def execCsrw (a : BitVec 8) (d : Word) (s : State) : Host.Outcome State Fault Refusal :=
  match csrAt a with
  | none => fail s .badAddr
  | some c =>
    if csrReadOnly c then fail s .readOnly
    else if csrAccepts c d then ok (s.writeCsr c d) 0
    else fail s .badValue

end Sys2Proof.Machine
end

