-- ==== Sys2Proof/Machine/Generator.lean ====
section
/-!
DEFINITION. The Generator Core's commands: SEED and NEXT (40_generator.md R156, R160).
-/

namespace Sys2Proof.Machine

/-- SEED (40_generator.md R156). -/
def execSeed (s : State) : Host.Outcome State Fault Refusal :=
  if allZero s.seedbuf then fail s .zeroSeed else ok s.loadSeed 0

/-- NEXT and NEXT.T (40_generator.md R160): the output and its masked form come from the state before the step, and
Q = {masked, raw}. -/
def execNext (t : Bool) (s : State) : Host.Outcome State Fault Refusal :=
  if !s.seeded then fail s .unseeded
  else
    let raw := outGen s.gen
    let masked := fmt s.mask s.shift raw
    let s' := s.advance
    ok (if t then s'.trackInt (s.trackedWord raw masked) else s') (masked ++ raw)

end Sys2Proof.Machine
end

