-- ==== Sys2Proof/Machine/Jump.lean ====
section
/-!
DEFINITION. The Jump Engine's commands: JUMP and LJUMP (41_jump.md R186, R187).
-/

namespace Sys2Proof.Machine

/-- JUMP (41_jump.md R186). -/
def execJump (s : State) : Host.Outcome State Fault Refusal :=
  if !s.seeded then fail s .unseeded else ok (s.jumpBy jumpConst) 0

/-- LJUMP (41_jump.md R187). -/
def execLjump (s : State) : Host.Outcome State Fault Refusal :=
  if !s.seeded then fail s .unseeded else ok (s.jumpBy ljumpConst) 0

end Sys2Proof.Machine
end

