-- ==== Sys2Proof/Machine/Tracker.lean ====
section
/-!
DEFINITION. The Frequency Tracker's commands: TRKI, TRKF, CNTR and STCLR (43_tracker.md R233, R236, R239, R241).
-/

namespace Sys2Proof.Machine

/-- TRKI (43_tracker.md R233). -/
def execTrki (d : Word) (s : State) : Host.Outcome State Fault Refusal := ok (s.trackInt d) 0

/-- TRKF (43_tracker.md R236). -/
def execTrkf (d : Word) (s : State) : Host.Outcome State Fault Refusal := ok (s.trackFlt d) 0

/-- CNTR (43_tracker.md R239). -/
def execCntr (a : BitVec 8) (s : State) : Host.Outcome State Fault Refusal :=
  match counterAt a with
  | none => fail s .badAddr
  | some c => ok s (s.counter c)

/-- STCLR (43_tracker.md R241). -/
def execStclr (s : State) : Host.Outcome State Fault Refusal := ok s.clearTracker 0

end Sys2Proof.Machine
end

