-- ==== Sys2Proof/Machine/Dispatch.lean ====
section
/-! DEFINITION. exec: the meaning of every command, one arm for each constructor of Instr. -/

namespace Sys2Proof.Machine

def exec (i : Instr) (s : State) : Host.Outcome State Fault Refusal :=
  match i with
  | .nop => Sys2Proof.Machine.execNop s
  | .csrr a => Sys2Proof.Machine.execCsrr a s
  | .csrw a d => Sys2Proof.Machine.execCsrw a d s
  | .seed => Sys2Proof.Machine.execSeed s
  | .next t => Sys2Proof.Machine.execNext t s
  | .jump => Sys2Proof.Machine.execJump s
  | .ljump => Sys2Proof.Machine.execLjump s
  | .trki d => Sys2Proof.Machine.execTrki d s
  | .trkf d => Sys2Proof.Machine.execTrkf d s
  | .cntr a => Sys2Proof.Machine.execCntr a s
  | .stclr => Sys2Proof.Machine.execStclr s

end Sys2Proof.Machine
end

