-- ==== Sys2Proof/Machine/Transact.lean ====
section
/-!
DEFINITION. One turn of the block: it takes the next thing the host does and answers it (30_encoding.md R110). A
command is decoded, and run as one indivisible step (20_memory.md R87); a word that decodes to ILLEGAL raises ILLEGAL
(30_encoding.md R116); a host that does nothing, or goes back to the start of its loop (R317), finds the block unchanged
(60_exceptions.md R315).
-/

namespace Sys2Proof.Machine

/-- The block runs one command (30_encoding.md R110, R116). -/
def runCommand (c : Command) (s : State) : Host.Outcome State Fault Refusal :=
  match decode c with
  | .illegal _ => fail s .illegal
  | .instr i => exec i s

/-- The block answers one thing the host does. -/
def serve (e : HostEvent) (s : State) : Host.Outcome State Fault Refusal :=
  match e with
  | .issue c => runCommand c s
  | .reset => .next s.hardReset
  | .resetDuring _ => .next s.hardReset
  | .overlap _ => .refused .overlappingHost

/-- The host, done with its list, is at the start of its endless loop (60_exceptions.md R317); no element of the block
changes. A host without a loop stays done. -/
def State.beginLoop (s : State) : State := { s with host := s.loop }

/-- One turn: the first event of the host's list is taken from it and answered; without one the block holds its state
(70_reset_and_hazards.md R343, 60_exceptions.md R315) and the host begins its loop, if it has one. -/
def turn (s : State) : Host.Outcome State Fault Refusal :=
  match s.host with
  | [] => .next s.beginLoop
  | e :: rest => serve e { s with host := rest }

/-- The host presents `c` next, before what it does anyway. -/
def State.present (s : State) (c : Command) : State := { s with host := .issue c :: s.host }

end Sys2Proof.Machine
end

