-- ==== Sys2Proof/Machine/Step.lean ====
section
/-! DEFINITION. The step of the machine, and the placing of one command so that the next step runs it. -/

namespace Sys2Proof.Machine

/-- One step of the machine: one turn of the block (30_encoding.md R110, 20_memory.md R91). -/
def step (s : State) : Host.Outcome State Fault Refusal := turn s

/-- `s` with the host about to present the command whose bits are `w`: CMD is bits 31..0 and D bits 63..32, the bits
from `nbits` on zero. Programs come from the host's list; nothing else of the state changes. -/
def State.withFetchWord (s : State) (nbits w : Nat) : State := s.present (commandOfBits (w % 2 ^ nbits))

end Sys2Proof.Machine
end

