-- ==== Sys2Proof/Machine/Assembler.lean ====
section
/-!
DEFINITION. The assembler of 30_encoding.md R119 and the pseudo-instructions of R120: from one line of text to a list
of commands. It is host software beside the block; no rule of the machine uses it. What R119 leaves open is closed in
notes/assumptions/9.md: a line the rule gives no reading answers none.
-/

namespace Sys2Proof.Machine

/-- How a line names a control register: by its name, or by a number 0..255 (30_encoding.md R119). -/
inductive CsrArg where
  | name (c : Csr)
  | number (n : Nat)
deriving DecidableEq, Repr

/-- How a line names a counter: `<file>[<bit>]` or an index (30_encoding.md R119). -/
inductive CounterArg where
  | file (dom : Domain) (kind : Kind) (bit : Nat)
  | number (n : Nat)
deriving DecidableEq, Repr

/-- The value of TRKF: a 32-bit number, or a decimal float literal, which is the number `digits / 10^places` with a
sign (30_encoding.md R119). -/
inductive SampleArg where
  | number (n : Nat)
  | decimal (negative : Bool) (digits places : Nat)
deriving DecidableEq, Repr

/-- One line: the commands of 30_encoding.md R119, then the pseudo-instructions of R120. -/
inductive AsmLine where
  | nop
  | csrr (r : CsrArg)
  | csrw (r : CsrArg) (v : Nat)
  | seed
  | next
  | nextT
  | jump
  | ljump
  | trki (v : Nat)
  | trkf (v : SampleArg)
  | cntr (c : CounterArg)
  | stclr
  | seedv (ws : List Nat)
  | rdstate (i : Nat)
  | config (mask shift : Nat)
  | emit
  | jumpn (n : Nat)
  | ljumpn (n : Nat)
deriving DecidableEq, Repr

/-! ## From lines to commands -/

/-- A number as a value of `n` bits, none where it does not fit. -/
def fits (n v : Nat) : Option (BitVec n) := if v < 2 ^ n then some (BitVec.ofNat n v) else none

/-- The A field of a register operand (30_encoding.md R119). -/
def csrArgField : CsrArg → Option (BitVec 8)
  | .name c => some (csrAddress c)
  | .number n => fits 8 n

/-- The A field of a counter operand (30_encoding.md R119; 95_test_vectors.md P4 writes `CNTR 0x80`). -/
def counterArgField : CounterArg → Option (BitVec 8)
  | .file dom kind bit => if h : bit < 32 then some (counterAddress ⟨dom, kind, ⟨bit, h⟩⟩) else none
  | .number n => fits 8 n

/-- The quotient `n / d` rounded to the nearest natural number, ties to even. -/
def divNearestEven (n d : Nat) : Nat :=
  let q := n / d
  let r := n % d
  if 2 * r > d ∨ (2 * r = d ∧ q % 2 = 1) then q + 1 else q

/-- The magnitude x[30:0] of the binary32 value nearest to `n / d * 2^-149`: with `e` the number of bits beyond 24, the
pattern is `e * 2^23` plus the rounded significand, and from 0x7F800000 on it is infinity
(93_implementation_defined.md G5). PRESUMED, notes/assumptions/9.md: rounding is to nearest, ties to even. -/
def fltPatternOfRatio (n d : Nat) : BitVec 31 :=
  let e := Nat.log2 (n / d) - 23
  BitVec.ofNat 31 (min (e * 2 ^ 23 + divNearestEven n (d * 2 ^ e)) 0x7F800000)

/-- The binary32 pattern a decimal literal stands for (30_encoding.md R119). -/
def fltOfDecimal (negative : Bool) (digits places : Nat) : Word :=
  BitVec.ofBool negative ++ fltPatternOfRatio (digits * 2 ^ 149) (10 ^ places)

/-- The operand of TRKF (30_encoding.md R119). -/
def sampleArgWord : SampleArg → Option Word
  | .number n => fits 32 n
  | .decimal negative digits places => some (fltOfDecimal negative digits places)

/-- The expansion of SEEDV with one to four words: the missing ones are 0 (30_encoding.md R120). -/
def seedvExpansion (w : Quad) : List Instr :=
  [.csrw (csrAddress .seedbuf0) w.w0, .csrw (csrAddress .seedbuf1) w.w1, .csrw (csrAddress .seedbuf2) w.w2,
   .csrw (csrAddress .seedbuf3) w.w3, .seed]

/-- The commands of a line: one for a command (30_encoding.md R119), the expansion for a pseudo-instruction (R120).
None where an operand is out of its range. -/
def assemble : AsmLine → Option (List Instr)
  | .nop => some [.nop]
  | .csrr r => do some [.csrr (← csrArgField r)]
  | .csrw r v => do some [.csrw (← csrArgField r) (← fits 32 v)]
  | .seed => some [.seed]
  | .next => some [.next false]
  | .nextT => some [.next true]
  | .jump => some [.jump]
  | .ljump => some [.ljump]
  | .trki v => do some [.trki (← fits 32 v)]
  | .trkf v => do some [.trkf (← sampleArgWord v)]
  | .cntr c => do some [.cntr (← counterArgField c)]
  | .stclr => some [.stclr]
  | .seedv [a] => do some (seedvExpansion ⟨← fits 32 a, 0, 0, 0⟩)
  | .seedv [a, b] => do some (seedvExpansion ⟨← fits 32 a, ← fits 32 b, 0, 0⟩)
  | .seedv [a, b, c] => do some (seedvExpansion ⟨← fits 32 a, ← fits 32 b, ← fits 32 c, 0⟩)
  | .seedv [a, b, c, d] => do some (seedvExpansion ⟨← fits 32 a, ← fits 32 b, ← fits 32 c, ← fits 32 d⟩)
  | .seedv _ => none
  | .rdstate i => if i < 4 then some [.csrr (csrAddress .state0 + BitVec.ofNat 8 i)] else none
  | .config m k => do some [.csrw (csrAddress .mask) (← fits 32 m), .csrw (csrAddress .shift) (← fits 32 k)]
  | .emit => some [.next true]
  | .jumpn n => some (List.replicate n .jump)
  | .ljumpn n => some (List.replicate n .ljump)

/-! ## From text to lines -/

/-- A string of characters without the blanks at its ends. -/
def trimBlanks (cs : List Char) : List Char :=
  ((cs.dropWhile Char.isWhitespace).reverse.dropWhile Char.isWhitespace).reverse

/-- The value of a digit in a base of at most 16. -/
def digitValue (base : Nat) (c : Char) : Option Nat :=
  let v := if c.isDigit then c.toNat - '0'.toNat
    else if 'a' ≤ c ∧ c ≤ 'f' then c.toNat - 'a'.toNat + 10
    else if 'A' ≤ c ∧ c ≤ 'F' then c.toNat - 'A'.toNat + 10
    else 16
  if v < base then some v else none

/-- A non-empty run of digits as a number. -/
def digitsValue (base : Nat) (cs : List Char) : Option Nat :=
  if cs.isEmpty then none else cs.foldlM (fun acc c => (digitValue base c).map (acc * base + ·)) 0

/-- A number, decimal or `0x` hexadecimal (30_encoding.md R119). -/
def parseNumber : List Char → Option Nat
  | '0' :: 'x' :: cs => digitsValue 16 cs
  | cs => digitsValue 10 cs

/-- The name of a control register (10_state.md R44). -/
def parseCsrName (cs : List Char) : Option Csr :=
  match String.ofList cs with
  | "MASK" => some .mask
  | "SHIFT" => some .shift
  | "ACTIVE" => some .active
  | "CTRL" => some .ctrl
  | "STATUS" => some .status
  | "SEEDBUF0" => some .seedbuf0
  | "SEEDBUF1" => some .seedbuf1
  | "SEEDBUF2" => some .seedbuf2
  | "SEEDBUF3" => some .seedbuf3
  | "STATE0" => some .state0
  | "STATE1" => some .state1
  | "STATE2" => some .state2
  | "STATE3" => some .state3
  | "IMIN" => some .imin
  | "IMAX" => some .imax
  | "FMIN" => some .fmin
  | "FMAX" => some .fmax
  | _ => none

/-- A register operand: a name or a number (30_encoding.md R119). -/
def parseCsrArg (cs : List Char) : Option CsrArg :=
  ((parseCsrName cs).map .name).orElse fun _ => (parseNumber cs).map .number

/-- A counter operand: `SETI[k]`, `CLRI[k]`, `SETF[k]`, `CLRF[k]` or a number (30_encoding.md R119). -/
def parseCounterArg (cs : List Char) : Option CounterArg :=
  let file (dom : Domain) (kind : Kind) (rest : List Char) : Option CounterArg :=
    if rest.getLast? = some ']' then (parseNumber rest.dropLast).map (.file dom kind) else none
  match cs with
  | 'S' :: 'E' :: 'T' :: 'I' :: '[' :: rest => file .int .set rest
  | 'C' :: 'L' :: 'R' :: 'I' :: '[' :: rest => file .int .clear rest
  | 'S' :: 'E' :: 'T' :: 'F' :: '[' :: rest => file .flt .set rest
  | 'C' :: 'L' :: 'R' :: 'F' :: '[' :: rest => file .flt .clear rest
  | _ => (parseNumber cs).map .number

/-- A decimal float literal: an optional minus, digits, a point, digits. -/
def parseDecimal (cs : List Char) : Option SampleArg :=
  let body (negative : Bool) (ds : List Char) : Option SampleArg :=
    let whole := ds.takeWhile (· ≠ '.')
    let places := ds.drop (whole.length + 1)
    if whole.isEmpty ∨ places.isEmpty then none
    else (digitsValue 10 (whole ++ places)).map fun v => .decimal negative v places.length
  match cs with
  | '-' :: ds => body true ds
  | ds => body false ds

/-- The operand of TRKF: a number or a decimal float literal (30_encoding.md R119). -/
def parseSampleArg (cs : List Char) : Option SampleArg :=
  ((parseNumber cs).map .number).orElse fun _ => parseDecimal cs

/-- A mnemonic with its operands (30_encoding.md R119, R120). -/
def parseStatement (mnemonic : List Char) (args : List (List Char)) : Option AsmLine :=
  match String.ofList mnemonic, args with
  | "NOP", [] => some .nop
  | "CSRR", [r] => (parseCsrArg r).map .csrr
  | "CSRW", [r, v] => do some (.csrw (← parseCsrArg r) (← parseNumber v))
  | "SEED", [] => some .seed
  | "NEXT", [] => some .next
  | "NEXT.T", [] => some .nextT
  | "JUMP", [] => some .jump
  | "LJUMP", [] => some .ljump
  | "TRKI", [v] => (parseNumber v).map .trki
  | "TRKF", [v] => (parseSampleArg v).map .trkf
  | "CNTR", [c] => (parseCounterArg c).map .cntr
  | "STCLR", [] => some .stclr
  | "SEEDV", ws => (ws.mapM parseNumber).map .seedv
  | "RDSTATE", [i] => (parseNumber i).map .rdstate
  | "CONFIG", [m, k] => do some (.config (← parseNumber m) (← parseNumber k))
  | "EMIT", [] => some .emit
  | "JUMPN", [n] => (parseNumber n).map .jumpn
  | "LJUMPN", [n] => (parseNumber n).map .ljumpn
  | _, _ => none

/-- The commands of one line of text: what stands before a `;`, a mnemonic and operands with commas between them; a
line with nothing there has no commands (30_encoding.md R119). -/
def assembleText (line : String) : Option (List Instr) :=
  let code := trimBlanks (line.toList.takeWhile (· ≠ ';'))
  if code.isEmpty then some []
  else
    let mnemonic := code.takeWhile fun c => !c.isWhitespace
    let rest := trimBlanks (code.drop mnemonic.length)
    let args := if rest.isEmpty then [] else (rest.splitOn ',').map trimBlanks
    (parseStatement mnemonic args).bind assemble

end Sys2Proof.Machine
end

