-- ==== Sys2Proof/Machine/Harness.lean ====
section
/-!
DEFINITION. The host's side of a run: a list of commands as host events, the source's harness order transcribed to
commands (70_reset_and_hazards.md R345), and its unbounded raw mode (60_exceptions.md R317). It is host software beside the block; the step does not use it.
-/

namespace Sys2Proof.Machine

/-- A host that issues the words of these commands in order, waiting for each response (30_encoding.md R110). -/
def issueAll (is : List Instr) : List HostEvent := is.map fun i => .issue (encode i)

/-- What configures a run of the harness (70_reset_and_hazards.md R345). `trackInt` says whether an emitted value is a
NEXT.T or a NEXT. `floats` holds, in float mode with tracking on, the converted value the host tracks after each emitted
word, and is empty otherwise; the conversion is the host's own (00_scope.md R5). DESIGN CHOICE, notes/assumptions/16.md:
the two are independent. In float mode with tracking on R345 step 5 and 43_tracker.md R236 write NEXT before the TRKF,
and 40_generator.md R161 writes NEXT.T with tracking; both hosts can be formed. -/
structure HarnessConfig where
  seedWords : List Word
  jumps : Nat
  ljumps : Nat
  mask : Word
  shift : Word
  ctrl : Word
  count : Nat
  trackInt : Bool
  floats : List Word
deriving DecidableEq, Repr

/-- Step 2: write the supplied seed words, then SEED (70_reset_and_hazards.md R345). -/
def seedCommands (ws : List Word) : List Instr :=
  (ws.zipIdx.map fun w => .csrw (csrAddress .seedbuf0 + BitVec.ofNat 8 w.2) w.1) ++ [.seed]

/-- Step 5: each emitted value is a NEXT or, where `trackInt` is set, a NEXT.T; a TRKF of the converted value follows
where `floats` holds one (70_reset_and_hazards.md R345; 40_generator.md R161; 43_tracker.md R236). Which of the two
stands before a TRKF the spec leaves open, and the configuration says (DESIGN CHOICE, notes/assumptions/16.md). -/
def emissionCommands (c : HarnessConfig) : List Instr :=
  (List.range c.count).flatMap fun k => .next c.trackInt :: (c.floats[k]?.map .trkf).toList

/-- Step 6: read every counter and the four min and max registers (70_reset_and_hazards.md R345). -/
def reportCommands : List Instr :=
  ((List.range 128).map fun k => .cntr (BitVec.ofNat 8 k)) ++
    [.csrr (csrAddress .imin), .csrr (csrAddress .imax), .csrr (csrAddress .fmin), .csrr (csrAddress .fmax)]

/-- Steps 2 to 4: seed, jumps, configuration and the read of ACTIVE (70_reset_and_hazards.md R345). -/
def setupCommands (c : HarnessConfig) : List Instr :=
  seedCommands c.seedWords ++ List.replicate c.jumps .jump ++ List.replicate c.ljumps .ljump ++
    [.csrw (csrAddress .mask) c.mask, .csrw (csrAddress .shift) c.shift, .csrw (csrAddress .ctrl) c.ctrl,
     .csrr (csrAddress .active)]

/-- A run of the harness: reset, seed, jumps, configuration and the read of ACTIVE, emission, report
(70_reset_and_hazards.md R345). None with more than four seed words: the host raises that configuration error before
any command (60_exceptions.md R301). -/
def harness (c : HarnessConfig) : Option (List HostEvent) :=
  if 4 < c.seedWords.length then none
  else some (.reset :: issueAll (setupCommands c ++ emissionCommands c ++ reportCommands))

/-- The host of the unbounded raw mode, its list and its loop: reset, setup, and then emitted values without end, none
of them followed by a TRKF (60_exceptions.md R317, 44_control.md R277). `count` and `floats` are not used. -/
def rawMode (c : HarnessConfig) : Option (List HostEvent × List HostEvent) :=
  if 4 < c.seedWords.length then none
  else some (.reset :: issueAll (setupCommands c), issueAll [.next c.trackInt])

end Sys2Proof.Machine
end

