-- ==== Sys2Proof/Machine/Serial.lean ====
section
/-!
DEFINITION. How a host turns the block's words into bytes: least significant byte first (20_memory.md R84). Inside the
block every value is a whole word and no byte order arises (R83), so no command uses this file.
-/

namespace Sys2Proof.Machine

/-- The bytes of a word: w[7:0], w[15:8], w[23:16], w[31:24] (20_memory.md R84). -/
def wordBytes (w : Word) : List (BitVec 8) :=
  [w.extractLsb' 0 8, w.extractLsb' 8 8, w.extractLsb' 16 8, w.extractLsb' 24 8]

/-- The bytes of a result Q: its low word, then its high word (20_memory.md R84). -/
def resultBytes (q : DWord) : List (BitVec 8) :=
  wordBytes (q.extractLsb' 0 32) ++ wordBytes (q.extractLsb' 32 32)

/-- The raw-mode stream of a list of words: their bytes one after the other, no framing (20_memory.md R84). -/
def streamBytes (ws : List Word) : List (BitVec 8) := ws.flatMap wordBytes

end Sys2Proof.Machine
end

