-- ==== Sys2Proof/Safety.lean ====
section
/-!
DEFINITION. What counts as a safe run, in the terms the claims use: the invariant of the state that every turn of the
block keeps, a host that keeps to the protocol (70_reset_and_hazards.md R351), and a run without an error
(92_eei_decisions.md D21: "a claim takes ERR = 0 as a premise").
-/

namespace Sys2Proof.Machine

/-- A state word vector a generator may be in: zero while unseeded, never zero while seeded (10_state.md R32, R57). -/
abbrev seedInv (s : State) : Prop := if s.seeded then s.gen ≠ quadZero else s.gen = quadZero

/-- Every bit position of a domain has counted the same number of samples, modulo 2^64 (10_state.md R52). -/
abbrev balanced (t : Tracker) : Prop := ∀ k : Fin 32, t.set[k] + t.clr[k] = t.set[(0 : Fin 32)] + t.clr[(0 : Fin 32)]

/-- The integer domain holds no sample's min and max yet, or its min is not above its max (43_tracker.md R234). -/
abbrev orderedInt (t : Tracker) : Prop :=
  (t.min = Tracker.emptyInt.min ∧ t.max = Tracker.emptyInt.max) ∨ t.min.ule t.max

/-- Neither float register holds a NaN, and they hold no sample's min and max yet or the max does not compare below
the min (43_tracker.md R235, R238). -/
abbrev orderedFlt (t : Tracker) : Prop :=
  fltIsNaN t.min = false ∧ fltIsNaN t.max = false ∧
    ((t.min = Tracker.emptyFlt.min ∧ t.max = Tracker.emptyFlt.max) ∨ fltLt t.max t.min = false)

/-- A code the block produces: 0..6, never a reserved one (60_exceptions.md R300). -/
abbrev legalCode (c : BitVec 4) : Prop := c.toNat ≤ 6

/-- A response the block presents: a legal code, and Q = 0 with an error; an error stands in ERR or an earlier one does
(60_exceptions.md R300, R302; 10_state.md R41). -/
abbrev legalResponse (s : State) : Prop :=
  ∀ r ∈ s.response, legalCode r.st ∧ (r.st ≠ okCode → r.q = 0 ∧ s.err ≠ okCode)

/-- The invariant of the block. -/
structure Inv (s : State) : Prop where
  seed : seedInv s
  intBalanced : balanced s.int
  fltBalanced : balanced s.flt
  intOrdered : orderedInt s.int
  fltOrdered : orderedFlt s.flt
  err : legalCode s.err
  response : legalResponse s

/-- A host that waits for each response before it issues the next command, in its list and in its loop
(70_reset_and_hazards.md R351). -/
abbrev hostWaits (s : State) : Prop := ∀ e ∈ s.host ++ s.loop, ∀ c, e ≠ .overlap c

/-- No error has been raised since reset (10_state.md R41). -/
abbrev errorFree (s : State) : Prop := s.err = okCode

/-! ## Terms of the claims -/

/-- The state in which a command has succeeded with result `q` and has changed nothing but the response. -/
def succeeded (s : State) (q : DWord) : State := { s with response := some ⟨0, q⟩ }

/-- The state in which a command has raised the error with code `c`: ERR takes the code where it was 0, Q is 0 and
nothing else changes (60_exceptions.md R302). -/
def failed (s : State) (c : BitVec 4) : State :=
  { s with err := if s.err = 0 then c else s.err, response := some ⟨c, 0⟩ }

/-- The command words of 30_encoding.md R117's list of illegal ones, by arithmetic on the number CMD: RSVD != 0,
OP above 0x0A, T on another opcode than 0x04, A on another opcode than 0x01, 0x02 and 0x09. -/
def illegalWord (cmd : Nat) : Prop :=
  cmd / 2 ^ 17 ≠ 0 ∨ 10 < cmd % 256 ∨ (cmd / 2 ^ 16 % 2 = 1 ∧ cmd % 256 ≠ 4) ∨
    (cmd / 256 % 256 ≠ 0 ∧ cmd % 256 ≠ 1 ∧ cmd % 256 ≠ 2 ∧ cmd % 256 ≠ 9)

/-- What the words of one opcode do: with RSVD = 0, `f` names the command for the fields A and T and the operand D, and
every word for which it names none raises ILLEGAL and changes nothing else but ERR (30_encoding.md R116, R117). -/
def opcodeDecodes (op : Nat) (f : BitVec 8 → Bool → Word → Option Instr) : Prop :=
  ∀ c : Command, c.cmd.toNat % 256 = op →
    match (if c.cmd.toNat / 2 ^ 17 = 0 then f (BitVec.ofNat 8 (c.cmd.toNat / 256)) (c.cmd.toNat / 2 ^ 16 % 2 = 1) c.d
      else none) with
    | some i => decode c = .instr i
    | none => ∀ s : State, runCommand c s = .next (failed s 1)

/-- The status codes each command may respond with once it has decoded: 0 and its errors (60_exceptions.md R305). -/
def possibleCodes : Instr → List (BitVec 4)
  | .nop => [0]
  | .csrr _ => [0, 2]
  | .csrw _ _ => [0, 2, 3, 4]
  | .seed => [0, 6]
  | .next _ => [0, 5]
  | .jump => [0, 5]
  | .ljump => [0, 5]
  | .trki _ => [0]
  | .trkf _ => [0]
  | .cntr _ => [0, 2]
  | .stclr => [0]

/-- The number a binary32 pattern that is no NaN encodes, in units of 2^-149 (43_tracker.md R238,
93_implementation_defined.md G5): the exponent field 0 holds the subnormals, and the exponent field 0xFF, an infinity,
continues the scale above every finite value. -/
def fltUnits (x : Word) : Int :=
  let e : Nat := x.toNat / 2 ^ 23 % 2 ^ 8
  let f : Nat := x.toNat % 2 ^ 23
  let m : Nat := if e = 0 then f else (2 ^ 23 + f) * 2 ^ (e - 1)
  if x.toNat < 2 ^ 31 then (m : Int) else -(m : Int)

/-- The 128-bit state vector over GF(2): entry 32*i + b is bit b of word i (41_jump.md R183). -/
def quadVec (q : Quad) : Fin 128 → ZMod 2 := fun k => if quadBit q k.val then 1 else 0

/-- Two states whose generator, seed flag, seed buffer and host agree; the mask stage, the tracker, ERR and the
response may differ (43_tracker.md R230). -/
def sameGenerator (s t : State) : Prop :=
  s.gen = t.gen ∧ s.seeded = t.seeded ∧ s.seedbuf = t.seedbuf ∧ s.host = t.host ∧ s.loop = t.loop

end Sys2Proof.Machine
end

