-- ==== Sys2Proof/Certificates/Slice0/Obligations.lean ====
section
/-!
DEFINITION. The statements about the block that the provers settle: what each command does, what an error does, how
words decode, the laws of the generator, the jumps, the mask stage and the tracker, and the invariant of a turn. They
come from the numbered rules of spec/; a docstring says where a clause is the model's own choice.
-/

open Sys2Proof Sys2Proof.Machine

/-! ## Encoding and decoding -/

/-- Decoding an encoded command gives the command, every operand at every value; and a word that decodes to a command
is the word the encoder gives for it, with the operand D that the command reads (30_encoding.md R111, R114, R116). -/
def Obligations.DecodeAndEncodeAgree : Prop :=
  (∀ i : Instr, decode (encode i) = .instr i) ∧
  (∀ (c : Command) (i : Instr), decode c = .instr i →
    (encode i).cmd = c.cmd ∧ ∀ d, i.operand = some d → d = c.d)

/-- The match and mask table: a word is a command exactly where it matches a row, the row has the command's mnemonic,
and at most one row matches (30_encoding.md R115). -/
def Obligations.CommandWordsAreTheTableRows : Prop :=
  ∀ c : Command,
    ((∃ i, decode c = .instr i) ↔ ∃ r ∈ opTable, c.cmd &&& r.mask = r.pattern) ∧
    (∀ i, decode c = .instr i → ∀ r ∈ opTable, c.cmd &&& r.mask = r.pattern → r.mnemonic = i.mnemonic) ∧
    (∀ r ∈ opTable, ∀ r' ∈ opTable, c.cmd &&& r.mask = r.pattern → c.cmd &&& r'.mask = r'.pattern → r = r')

/-- The illegal words: each raises ILLEGAL, code 1, and changes nothing but ERR; every other word decodes to a command
(30_encoding.md R117, R116; 60_exceptions.md R302). -/
def Obligations.IllegalWordsRaiseIllegal : Prop :=
  (∀ (s : State) (c : Command) (rest : List HostEvent), s.host = .issue c :: rest → illegalWord c.cmd.toNat →
    step s = .next (failed { s with host := rest } 1)) ∧
  (∀ c : Command, ¬ illegalWord c.cmd.toNat → ∃ i, decode c = .instr i)

/-- The encoding examples of 30_encoding.md R121: what each line assembles to, and what its words decode to. Where D is
ignored the encoder sends 0, the model's choice (notes/assumptions/6.md). -/
def Obligations.EncodingExamplesHold : Prop :=
  let rows : List (String × Word × Word × Instr) :=
    [("NOP", 0x00000000, 0, .nop),
     ("CSRR STATUS", 0x00000401, 0, .csrr 0x04),
     ("CSRR STATE3", 0x00000F01, 0, .csrr 0x0F),
     ("CSRW SEEDBUF0, 1", 0x00000802, 0x00000001, .csrw 0x08 1),
     ("CSRW MASK, 0xFF", 0x00000002, 0x000000FF, .csrw 0x00 0xFF),
     ("CSRW SHIFT, 4", 0x00000102, 0x00000004, .csrw 0x01 4),
     ("CSRW CTRL, 1", 0x00000302, 0x00000001, .csrw 0x03 1),
     ("SEED", 0x00000003, 0, .seed),
     ("NEXT", 0x00000004, 0, .next false),
     ("NEXT.T", 0x00010004, 0, .next true),
     ("JUMP", 0x00000005, 0, .jump),
     ("LJUMP", 0x00000006, 0, .ljump),
     ("TRKI 0xDEADBEEF", 0x00000007, 0xDEADBEEF, .trki 0xDEADBEEF),
     ("TRKF 0.5", 0x00000008, 0x3F000000, .trkf 0x3F000000),
     ("CNTR SETI[0]", 0x00000009, 0, .cntr 0x00),
     ("CNTR CLRI[0]", 0x00002009, 0, .cntr 0x20),
     ("CNTR SETF[31]", 0x00005F09, 0, .cntr 0x5F),
     ("CNTR CLRF[31]", 0x00007F09, 0, .cntr 0x7F),
     ("STCLR", 0x0000000A, 0, .stclr)]
  ∀ r ∈ rows, assembleText r.1 = some [r.2.2.2] ∧ encode r.2.2.2 = ⟨r.2.1, r.2.2.1⟩ ∧
    decode ⟨r.2.1, r.2.2.1⟩ = .instr r.2.2.2

/-- Every command but CSRW, TRKI and TRKF ignores D, whatever its value (30_encoding.md R111). -/
def Obligations.OtherCommandsIgnoreD : Prop :=
  ∀ (s : State) (cmd d d' : Word) (rest : List HostEvent),
    cmd.toNat % 256 ≠ 2 → cmd.toNat % 256 ≠ 7 → cmd.toNat % 256 ≠ 8 →
    step { s with host := .issue ⟨cmd, d⟩ :: rest } = step { s with host := .issue ⟨cmd, d'⟩ :: rest }

/-! ## The step -/

/-- When the command at the head of the host's list decodes to `i`, the step is the meaning of `i` in the state with
that event taken from the list; nothing else is added around it. The host's list is the model's own
(notes/assumptions/1.md). -/
def Obligations.StepRunsTheDecodedCommand : Prop :=
  ∀ (s : State) (c : Command) (rest : List HostEvent) (i : Instr),
    s.host = .issue c :: rest → decode c = .instr i → step s = exec i { s with host := rest }

/-- With no host event the step changes no element of the block (60_exceptions.md R315), and where the host has no
endless loop it changes nothing at all; that the host's silence, and its way back to the start of its loop, are steps is
the model's choice (notes/assumptions/2.md, notes/assumptions/19.md). -/
def Obligations.StepWithoutCommandHoldsState : Prop :=
  (∀ s : State, s.host = [] → step s = .next { s with host := s.loop }) ∧
  (∀ s : State, s.host = [] → s.loop = [] → step s = .next s)

/-- Reset, also during a command: every element takes the value of 10_state.md R57 and there is no response for the
command in flight (70_reset_and_hazards.md R340, R341). The host's list goes on (notes/assumptions/3.md). -/
def Obligations.ResetGivesEveryElementItsResetValue : Prop :=
  ∀ (s : State) (rest : List HostEvent), (s.host = .reset :: rest ∨ ∃ c, s.host = .resetDuring c :: rest) →
    step s = .next
      { gen := ⟨0, 0, 0, 0⟩, seedbuf := ⟨1, 0, 0, 0⟩, seeded := false, mask := 0, shift := 0, tsrc := false, err := 0,
        int := ⟨Vector.replicate 32 0, Vector.replicate 32 0, 0xFFFFFFFF, 0x00000000⟩,
        flt := ⟨Vector.replicate 32 0, Vector.replicate 32 0, 0x7F800000, 0xFF800000⟩,
        host := rest, loop := s.loop, response := none }

/-- What the state after reset holds, element by element (10_state.md R57). -/
def Obligations.ResetStateHoldsTheResetValues : Prop :=
  let s := State.reset
  s.gen = ⟨0, 0, 0, 0⟩ ∧ s.seedbuf = ⟨1, 0, 0, 0⟩ ∧ s.seeded = false ∧ s.mask = 0 ∧ s.shift = 0 ∧ s.tsrc = false ∧
    s.err = 0 ∧
    (∀ k : Fin 32, s.int.set[k] = 0 ∧ s.int.clr[k] = 0 ∧ s.flt.set[k] = 0 ∧ s.flt.clr[k] = 0) ∧
    s.int.min = 0xFFFFFFFF ∧ s.int.max = 0x00000000 ∧ s.flt.min = 0x7F800000 ∧ s.flt.max = 0xFF800000

/-- A host that issues a command without waiting for the response before it is refused
(70_reset_and_hazards.md R351). -/
def Obligations.OverlappingHostIsRefused : Prop :=
  ∀ (s : State) (c : Command) (rest : List HostEvent), s.host = .overlap c :: rest →
    step s = .refused .overlappingHost

/-- A host that waits is always served: the step answers a next state, takes one event (or begins the host's loop when
none is left), and every command gets a response; the block never locks up (60_exceptions.md R303, 30_encoding.md R110). -/
def Obligations.WaitingHostIsAlwaysServed : Prop :=
  ∀ s : State, hostWaits s → ∃ t, step s = .next t ∧ t.host = (if s.host = [] then s.loop else s.host.tail) ∧
    t.loop = s.loop ∧ hostWaits t ∧
    ∀ c rest, s.host = .issue c :: rest → ∃ r, t.response = some r

/-! ## Control commands -/

/-- NOP: CMD 0 responds (OK, 0) and changes no state, seeded or not; A, T or RSVD set is ILLEGAL
(44_control.md R270). -/
def Obligations.NopOnlyResponds : Prop :=
  opcodeDecodes 0x00 (fun a t _ => if a = 0 ∧ t = false then some .nop else none) ∧
  ∀ s : State, exec .nop s = .next (succeeded s 0)

/-- CSRR: the value of every mapped register, zero-extended, no state changed; BAD_ADDR, code 2, at every other
address; T or RSVD set is ILLEGAL (44_control.md R272; 10_state.md R38, R39, R40, R42, R44). -/
def Obligations.CsrrReadsTheNamedRegister : Prop :=
  opcodeDecodes 0x01 (fun a t _ => if t = false then some (.csrr a) else none) ∧
  ∀ s : State,
    exec (.csrr 0x00) s = .next (succeeded s (s.mask.setWidth 64)) ∧
    exec (.csrr 0x01) s = .next (succeeded s (BitVec.ofNat 64 s.shift.toNat)) ∧
    exec (.csrr 0x02) s = .next (succeeded s (BitVec.ofNat 64
      ((Finset.range 32).filter fun k => k + s.shift.toNat < 32 ∧ s.mask.getLsbD k = true).card)) ∧
    exec (.csrr 0x03) s = .next (succeeded s (if s.tsrc then 1 else 0)) ∧
    exec (.csrr 0x04) s = .next (succeeded s (BitVec.ofNat 64 (16 * s.err.toNat + s.seeded.toNat))) ∧
    exec (.csrr 0x08) s = .next (succeeded s (s.seedbuf.w0.setWidth 64)) ∧
    exec (.csrr 0x09) s = .next (succeeded s (s.seedbuf.w1.setWidth 64)) ∧
    exec (.csrr 0x0A) s = .next (succeeded s (s.seedbuf.w2.setWidth 64)) ∧
    exec (.csrr 0x0B) s = .next (succeeded s (s.seedbuf.w3.setWidth 64)) ∧
    exec (.csrr 0x0C) s = .next (succeeded s (s.gen.w0.setWidth 64)) ∧
    exec (.csrr 0x0D) s = .next (succeeded s (s.gen.w1.setWidth 64)) ∧
    exec (.csrr 0x0E) s = .next (succeeded s (s.gen.w2.setWidth 64)) ∧
    exec (.csrr 0x0F) s = .next (succeeded s (s.gen.w3.setWidth 64)) ∧
    exec (.csrr 0x10) s = .next (succeeded s (s.int.min.setWidth 64)) ∧
    exec (.csrr 0x11) s = .next (succeeded s (s.int.max.setWidth 64)) ∧
    exec (.csrr 0x12) s = .next (succeeded s (s.flt.min.setWidth 64)) ∧
    exec (.csrr 0x13) s = .next (succeeded s (s.flt.max.setWidth 64)) ∧
    ∀ a : BitVec 8, (5 ≤ a.toNat ∧ a.toNat ≤ 7) ∨ 0x14 ≤ a.toNat → exec (.csrr a) s = .next (failed s 2)

/-- CSRW: the register named takes D, or the value is refused with BAD_VALUE, code 4; READ_ONLY, code 3, at a
read-only register whatever D is; BAD_ADDR, code 2, at an unmapped address whatever D is; nothing else changes;
T or RSVD set is ILLEGAL (44_control.md R274, R276). -/
def Obligations.CsrwWritesOnlyTheNamedRegister : Prop :=
  opcodeDecodes 0x02 (fun a t d => if t = false then some (.csrw a d) else none) ∧
  ∀ (s : State) (d : Word),
    exec (.csrw 0x00 d) s = .next (succeeded { s with mask := d } 0) ∧
    exec (.csrw 0x01 d) s = .next (if d.toNat ≤ 31 then succeeded { s with shift := BitVec.ofNat 5 d.toNat } 0
      else failed s 4) ∧
    exec (.csrw 0x03 d) s = .next (if d = 0 then succeeded { s with tsrc := false } 0
      else if d = 1 then succeeded { s with tsrc := true } 0 else failed s 4) ∧
    exec (.csrw 0x08 d) s = .next (succeeded { s with seedbuf := { s.seedbuf with w0 := d } } 0) ∧
    exec (.csrw 0x09 d) s = .next (succeeded { s with seedbuf := { s.seedbuf with w1 := d } } 0) ∧
    exec (.csrw 0x0A d) s = .next (succeeded { s with seedbuf := { s.seedbuf with w2 := d } } 0) ∧
    exec (.csrw 0x0B d) s = .next (succeeded { s with seedbuf := { s.seedbuf with w3 := d } } 0) ∧
    (∀ a : BitVec 8, a.toNat ∈ [0x02, 0x04, 0x0C, 0x0D, 0x0E, 0x0F, 0x10, 0x11, 0x12, 0x13] →
      exec (.csrw a d) s = .next (failed s 3)) ∧
    ∀ a : BitVec 8, (5 ≤ a.toNat ∧ a.toNat ≤ 7) ∨ 0x14 ≤ a.toNat → exec (.csrw a d) s = .next (failed s 2)

/-! ## Generator Core -/

/-- SEED: the seed buffer becomes the state and the block is seeded, or, with a zero buffer, ZERO_SEED, code 6;
A, T or RSVD set is ILLEGAL (40_generator.md R156). -/
def Obligations.SeedLoadsTheBufferOrRaisesZeroSeed : Prop :=
  opcodeDecodes 0x03 (fun a t _ => if a = 0 ∧ t = false then some .seed else none) ∧
  (∀ s : State, s.seedbuf ≠ ⟨0, 0, 0, 0⟩ →
    exec .seed s = .next (succeeded { s with gen := s.seedbuf, seeded := true } 0)) ∧
  (∀ s : State, s.seedbuf = ⟨0, 0, 0, 0⟩ → exec .seed s = .next (failed s 6))

/-- The step map in closed form; the zero state is its fixed point, and it respects exclusive-or
(40_generator.md R151). -/
def Obligations.StepMapHasTheClosedForm : Prop :=
  (∀ a b c d : Word, stepGen ⟨a, b, c, d⟩ =
    ⟨a ^^^ d ^^^ b, b ^^^ c ^^^ a, c ^^^ a ^^^ (b <<< 9), (d ^^^ b).rotateLeft 11⟩) ∧
  stepGen ⟨0, 0, 0, 0⟩ = ⟨0, 0, 0, 0⟩ ∧
  ∀ u w : Quad, stepGen (quadXor u w) = quadXor (stepGen u) (stepGen w)

/-- The output is S0 + S3 modulo 2^32, the carry discarded (40_generator.md R152). -/
def Obligations.OutputIsTheSumOfS0AndS3 : Prop :=
  ∀ a b c d : Word, (outGen ⟨a, b, c, d⟩).toNat = (a.toNat + d.toNat) % 2 ^ 32

/-- NEXT and NEXT.T: the output and its masked form come from the state before the step, the state advances once,
and with T the integer domain tracks the raw word, or the masked one where TSRC = 1; unseeded, UNSEEDED, code 5;
A or RSVD set is ILLEGAL (40_generator.md R160, 43_tracker.md R237). -/
def Obligations.NextRespondsAndAdvances : Prop :=
  opcodeDecodes 0x04 (fun a t _ => if a = 0 then some (.next t) else none) ∧
  (∀ (s : State) (t : Bool), s.seeded = false → exec (.next t) s = .next (failed s 5)) ∧
  (∀ (s : State) (t : Bool), s.seeded = true →
    let raw : Word := s.gen.w0 + s.gen.w3
    let masked : Word := if s.mask = 0 then raw else (raw >>> s.shift.toNat) &&& s.mask
    let q : DWord := BitVec.ofNat 64 (masked.toNat * 2 ^ 32 + raw.toNat)
    exec (.next t) s = .next (succeeded
      { s with
        gen := stepGen s.gen
        int := if t then (s.trackInt (if s.tsrc then masked else raw)).int else s.int } q))

/-- Before a successful SEED the three generator commands raise UNSEEDED, code 5, and do nothing else; every other
command succeeds straight after reset where it is well-formed, that is, where its operands pass the checks of
44_control.md R272, R274, R276 and 43_tracker.md R239 (70_reset_and_hazards.md R344). The notion of a well-formed command
is the model's choice (notes/assumptions/15.md). -/
def Obligations.OnlyGeneratorCommandsNeedASeed : Prop :=
  (∀ (s : State) (t : Bool), s.seeded = false →
    exec (.next t) s = .next (failed s 5) ∧ exec .jump s = .next (failed s 5) ∧
      exec .ljump s = .next (failed s 5)) ∧
  (∀ i : Instr, i.WellFormed → (∀ t, i ≠ .next t) → i ≠ .jump → i ≠ .ljump →
    ∃ t r, exec i State.reset = .next t ∧ t.response = some r ∧ r.st = 0 ∧ t.err = 0)

/-! ## Jump Engine -/

/-- JUMP and LJUMP, seeded: the accumulator of the polynomial evaluation with their constant replaces S0..S3, the
response is (OK, 0) and nothing else changes (41_jump.md R181, R185, R188). -/
def Obligations.JumpReplacesOnlyTheState : Prop :=
  ∀ s : State, s.seeded = true →
    exec .jump s = .next (succeeded
      { s with gen := jumpPoly ⟨0x8764000b, 0xf542d2d3, 0x6fa035c3, 0x77f2db5b⟩ s.gen } 0) ∧
    exec .ljump s = .next (succeeded
      { s with gen := jumpPoly ⟨0xb523952e, 0x0b6f099f, 0xccf5a0ef, 0x1c580662⟩ s.gen } 0)

/-- The polynomial evaluation: the exclusive-or of the k-fold steps of the state over the set bits k of the constant,
bit k being bit (k mod 32) of word (k div 32) (41_jump.md R182, R184). -/
def Obligations.JumpPolyIsTheSumOfPowers : Prop :=
  ∀ j s : Quad, jumpPoly j s =
    (List.range 128).foldl
      (fun acc k => if ([j.w0, j.w1, j.w2, j.w3].getD (k / 32) 0).getLsbD (k % 32) then quadXor acc (stepGen^[k] s)
        else acc) ⟨0, 0, 0, 0⟩

/-- The jump polynomials give exactly 2^64 and 2^96 steps from every state, so JUMP and LJUMP advance the state by that
many steps and change nothing else; unseeded, UNSEEDED, code 5; A, T or RSVD set is ILLEGAL (41_jump.md R186, R187, R189). -/
def Obligations.JumpIsExactlyThatManySteps : Prop :=
  opcodeDecodes 0x05 (fun a t _ => if a = 0 ∧ t = false then some .jump else none) ∧
  opcodeDecodes 0x06 (fun a t _ => if a = 0 ∧ t = false then some .ljump else none) ∧
  (∀ v : Quad, jumpPoly jumpConst v = stepGen^[2 ^ 64] v ∧ jumpPoly ljumpConst v = stepGen^[2 ^ 96] v) ∧
  ∀ s : State,
    (s.seeded = true →
      exec .jump s = .next (succeeded { s with gen := stepGen^[2 ^ 64] s.gen } 0) ∧
      exec .ljump s = .next (succeeded { s with gen := stepGen^[2 ^ 96] s.gen } 0)) ∧
    (s.seeded = false → exec .jump s = .next (failed s 5) ∧ exec .ljump s = .next (failed s 5))

/-- Jumps are linear over GF(2) and commute with each other and with the step, for any two constants
(41_jump.md R190 (a), (c)). -/
def Obligations.JumpsAreLinearAndCommute : Prop :=
  (∀ j u w : Quad, jumpPoly j (quadXor u w) = quadXor (jumpPoly j u) (jumpPoly j w)) ∧
  (∀ j l v : Quad, jumpPoly j (jumpPoly l v) = jumpPoly l (jumpPoly j v)) ∧
  (∀ j v : Quad, jumpPoly j (stepGen v) = stepGen (jumpPoly j v))

/-- 2^32 JUMPs leave the same state as one LJUMP (41_jump.md R190 (b)). -/
def Obligations.ManyJumpsAreOneLongJump : Prop :=
  ∀ v : Quad, (jumpPoly jumpConst)^[2 ^ 32] v = jumpPoly ljumpConst v

/-- The step map is the product with one 128 by 128 matrix over GF(2) (41_jump.md R183). -/
def Obligations.StepMapIsAMatrix : Prop :=
  ∃ m : Matrix (Fin 128) (Fin 128) (ZMod 2), ∀ q : Quad, quadVec (stepGen q) = m.mulVec (quadVec q)

/-- The step and both jumps are bijections that map zero and only zero to zero (41_jump.md R193). -/
def Obligations.StepAndJumpsAreInvertible : Prop :=
  (Function.Bijective stepGen ∧ ∀ v, stepGen v = quadZero ↔ v = quadZero) ∧
  (Function.Bijective (jumpPoly jumpConst) ∧ ∀ v, jumpPoly jumpConst v = quadZero ↔ v = quadZero) ∧
  (Function.Bijective (jumpPoly ljumpConst) ∧ ∀ v, jumpPoly ljumpConst v = quadZero ↔ v = quadZero)

/-- From a non-zero state the sequence of states returns after exactly 2^128 - 1 steps and not before
(40_generator.md R163). -/
def Obligations.PeriodOfTheGenerator : Prop :=
  ∀ v : Quad, v ≠ ⟨0, 0, 0, 0⟩ →
    stepGen^[2 ^ 128 - 1] v = v ∧ ∀ n : Nat, 0 < n → n < 2 ^ 128 - 1 → stepGen^[n] v ≠ v

/-! ## Mask stage -/

/-- The masked integer, with mask 0 the raw word unshifted, and the active bit count (42_formatter.md R211, R213). -/
def Obligations.MaskStageFormulas : Prop :=
  ∀ (mask raw : Word) (shift : BitVec 5),
    (mask = 0 → fmt mask shift raw = raw) ∧
    (mask ≠ 0 → ∀ k < 32, (fmt mask shift raw).getLsbD k = (raw.getLsbD (k + shift.toNat) && mask.getLsbD k)) ∧
    activeCount mask shift = ((Finset.range 32).filter fun k => k + shift.toNat < 32 ∧ mask.getLsbD k = true).card

/-- The range of the masked value (42_formatter.md R214 (a) to (d)). -/
def Obligations.MaskedValueStaysInRange : Prop :=
  ∀ (mask raw : Word) (shift : BitVec 5),
    (mask ≠ 0 →
      fmt mask shift raw &&& ~~~mask = 0 ∧ (fmt mask shift raw).toNat ≤ mask.toNat ∧
      fmt mask shift raw &&& ~~~((0xFFFFFFFF : Word) >>> shift.toNat) = 0 ∧
      popcount (fmt mask shift raw) ≤ activeCount mask shift) ∧
    (mask = 0 → fmt mask shift raw = raw)

/-! ## Frequency Tracker -/

/-- TRKI: at every bit position the set or the clear counter of the integer domain goes up by one modulo 2^64, IMIN and
IMAX follow under unsigned compare, and nothing else changes, seeded or not; A, T or RSVD set is ILLEGAL
(43_tracker.md R231, R232, R233). -/
def Obligations.TrkiCountsAnIntegerSample : Prop :=
  opcodeDecodes 0x07 (fun a t d => if a = 0 ∧ t = false then some (.trki d) else none) ∧
  ∀ (s : State) (d : Word), ∃ t, exec (.trki d) s = .next t ∧
    t = succeeded { s with int := t.int } 0 ∧
    (∀ k : Fin 32,
      t.int.set[k].toNat = (if d.getLsbD k then (s.int.set[k].toNat + 1) % 2 ^ 64 else s.int.set[k].toNat) ∧
      t.int.clr[k].toNat = (if d.getLsbD k then s.int.clr[k].toNat else (s.int.clr[k].toNat + 1) % 2 ^ 64)) ∧
    t.int.min.toNat = min d.toNat s.int.min.toNat ∧ t.int.max.toNat = max d.toNat s.int.max.toNat

/-- TRKF: the counters of the float domain, then FMIN and FMAX by a strict update under flt_lt; a NaN changes neither;
nothing else changes, seeded or not; A, T or RSVD set is ILLEGAL (43_tracker.md R231, R235, R236). -/
def Obligations.TrkfCountsAFloatSample : Prop :=
  opcodeDecodes 0x08 (fun a t d => if a = 0 ∧ t = false then some (.trkf d) else none) ∧
  ∀ (s : State) (d : Word), ∃ t, exec (.trkf d) s = .next t ∧
    t = succeeded { s with flt := t.flt } 0 ∧
    (∀ k : Fin 32,
      t.flt.set[k].toNat = (if d.getLsbD k then (s.flt.set[k].toNat + 1) % 2 ^ 64 else s.flt.set[k].toNat) ∧
      t.flt.clr[k].toNat = (if d.getLsbD k then s.flt.clr[k].toNat else (s.flt.clr[k].toNat + 1) % 2 ^ 64)) ∧
    t.flt.min = (if fltLt d s.flt.min then d else s.flt.min) ∧
    t.flt.max = (if fltLt s.flt.max d then d else s.flt.max) ∧
    (fltIsNaN d = true → t.flt.min = s.flt.min ∧ t.flt.max = s.flt.max)

/-- flt_lt is the order of the numbers that two patterns encode, NaN unordered (43_tracker.md R238; the encoding is
93_implementation_defined.md G5). -/
def Obligations.FloatCompareIsTheOrderOfValues : Prop :=
  ∀ a b : Word,
    (fltIsNaN a = true ↔ a.toNat / 2 ^ 23 % 2 ^ 8 = 255 ∧ a.toNat % 2 ^ 23 ≠ 0) ∧
    (fltIsNaN a = true ∨ fltIsNaN b = true → fltLt a b = false) ∧
    (fltIsNaN a = false → fltIsNaN b = false → (fltLt a b = true ↔ fltUnits a < fltUnits b))

/-- CNTR: index {DOM, KIND, BIT} reads SETI, CLRI, SETF or CLRF, all 64 bits, and changes nothing; A[7] = 1 raises
BAD_ADDR, code 2; T or RSVD set is ILLEGAL (43_tracker.md R239, 10_state.md R51). -/
def Obligations.CntrReadsTheNamedCounter : Prop :=
  opcodeDecodes 0x09 (fun a t _ => if t = false then some (.cntr a) else none) ∧
  ∀ s : State,
    (∀ k : Fin 32,
      exec (.cntr (BitVec.ofNat 8 k.val)) s = .next (succeeded s s.int.set[k]) ∧
      exec (.cntr (BitVec.ofNat 8 (32 + k.val))) s = .next (succeeded s s.int.clr[k]) ∧
      exec (.cntr (BitVec.ofNat 8 (64 + k.val))) s = .next (succeeded s s.flt.set[k]) ∧
      exec (.cntr (BitVec.ofNat 8 (96 + k.val))) s = .next (succeeded s s.flt.clr[k])) ∧
    ∀ a : BitVec 8, 128 ≤ a.toNat → exec (.cntr a) s = .next (failed s 2)

/-- STCLR: every counter 0, IMIN, IMAX, FMIN and FMAX at their identities, nothing else changed, and a second one
changes nothing further; A, T or RSVD set is ILLEGAL (43_tracker.md R241). -/
def Obligations.StclrClearsTheTracker : Prop :=
  opcodeDecodes 0x0A (fun a t _ => if a = 0 ∧ t = false then some .stclr else none) ∧
  (∀ s t : State, exec .stclr s = .next t → exec .stclr t = .next t) ∧
  ∀ s : State, ∃ t, exec .stclr s = .next t ∧ t = succeeded { s with int := t.int, flt := t.flt } 0 ∧
    (∀ k : Fin 32, t.int.set[k] = 0 ∧ t.int.clr[k] = 0 ∧ t.flt.set[k] = 0 ∧ t.flt.clr[k] = 0) ∧
    t.int.min = 0xFFFFFFFF ∧ t.int.max = 0x00000000 ∧ t.flt.min = 0x7F800000 ∧ t.flt.max = 0xFF800000

/-- A run of reset or STCLR and then TRKI for each of a list of samples: each SETI counts the samples with its bit set and each
CLRI the others, IMIN is the least and IMAX the greatest sample, and with no sample they are at their identities
(43_tracker.md R231, R234; 10_state.md R52). -/
def Obligations.IntegerStatisticsAreThoseOfTheSamples : Prop :=
  ∀ (s : State) (first : HostEvent) (vs : List Word), first = .reset ∨ first = .issue (encode .stclr) → ∃ t,
    core.run (vs.length + 1) { s with host := first :: issueAll (vs.map .trki) } = .next t ∧
    (∀ k : Fin 32, t.int.set[k] = BitVec.ofNat 64 (vs.countP fun v => v.getLsbD k) ∧
      t.int.clr[k] = BitVec.ofNat 64 (vs.countP fun v => !v.getLsbD k)) ∧
    (vs = [] → t.int.min = 0xFFFFFFFF ∧ t.int.max = 0x00000000) ∧
    (vs ≠ [] → t.int.min ∈ vs ∧ t.int.max ∈ vs ∧ ∀ v ∈ vs, t.int.min.toNat ≤ v.toNat ∧ v.toNat ≤ t.int.max.toNat)

/-- The tracker does not depend on the order of the samples: counters and IMIN, IMAX for any samples; the float domain
whole where no two samples are zeros of different sign (43_tracker.md R242). -/
def Obligations.TrackingIsOrderIndependent : Prop :=
  ∀ (s : State) (vs ws : List Word), vs.Perm ws →
    vs.foldl State.trackInt s = ws.foldl State.trackInt s ∧
    (vs.foldl State.trackFlt s).flt.set = (ws.foldl State.trackFlt s).flt.set ∧
    (vs.foldl State.trackFlt s).flt.clr = (ws.foldl State.trackFlt s).flt.clr ∧
    (¬ (0x00000000#32 ∈ vs ∧ 0x80000000#32 ∈ vs) → vs.foldl State.trackFlt s = ws.foldl State.trackFlt s)

/-! ## Errors -/

/-- A command that responds with an error has changed nothing but ERR, which takes the code where it was 0, and its
result is 0 (60_exceptions.md R302, 10_state.md R41). -/
def Obligations.FailingCommandChangesOnlyErr : Prop :=
  ∀ (s t : State) (c : Command) (rest : List HostEvent) (r : Response),
    s.host = .issue c :: rest → step s = .next t → t.response = some r → r.st ≠ 0 →
    t = failed { s with host := rest } r.st

/-- ERR keeps the first error: non-zero, no command changes it; zero, it takes the status of the response, which is 0
for a command that succeeds (10_state.md R41). -/
def Obligations.ErrKeepsTheFirstError : Prop :=
  ∀ (s t : State) (c : Command) (rest : List HostEvent), s.host = .issue c :: rest → step s = .next t →
    (s.err ≠ 0 → t.err = s.err) ∧ (s.err = 0 → ∃ r, t.response = some r ∧ t.err = r.st)

/-- A command responds only with OK or one of the errors of its own list; with ILLEGAL only where its word is illegal
(60_exceptions.md R305). -/
def Obligations.EachCommandHasItsOwnErrors : Prop :=
  (∀ (i : Instr) (s t : State), exec i s = .next t → ∃ r, t.response = some r ∧ r.st ∈ possibleCodes i) ∧
  (∀ (s t : State) (c : Command) (rest : List HostEvent), s.host = .issue c :: rest → step s = .next t →
    (∃ q, t.response = some ⟨1, q⟩) → illegalWord c.cmd.toNat)

/-- Well-formed commands are exactly those whose operands never fail: in a seeded block with a seed buffer that is
not zero, a command succeeds where it is well-formed and fails where it is not (60_exceptions.md R304, R305). -/
def Obligations.WellFormedCommandsSucceed : Prop :=
  ∀ (i : Instr) (s : State), s.seeded = true → s.seedbuf ≠ ⟨0, 0, 0, 0⟩ →
    ∃ t r, exec i s = .next t ∧ t.response = some r ∧ (i.WellFormed ↔ r.st = 0)

/-! ## The whole machine -/

/-- Which commands may change which element of the state (10_state.md R30, R31, R33). -/
def Obligations.OnlyTheListedCommandsWriteAnElement : Prop :=
  ∀ (i : Instr) (s t : State), exec i s = .next t →
    (t.gen ≠ s.gen → i = .seed ∨ i = .jump ∨ i = .ljump ∨ ∃ f, i = .next f) ∧
    (t.seeded ≠ s.seeded → i = .seed) ∧
    (t.seedbuf ≠ s.seedbuf → ∃ a d, i = .csrw a d ∧ 0x08 ≤ a.toNat ∧ a.toNat ≤ 0x0B) ∧
    (t.mask ≠ s.mask → ∃ d, i = .csrw 0x00 d) ∧
    (t.shift ≠ s.shift → ∃ d, i = .csrw 0x01 d) ∧
    (t.tsrc ≠ s.tsrc → ∃ d, i = .csrw 0x03 d) ∧
    (t.int ≠ s.int → i = .next true ∨ i = .stclr ∨ ∃ d, i = .trki d) ∧
    (t.flt ≠ s.flt → i = .stclr ∨ ∃ d, i = .trkf d) ∧
    (t.err ≠ s.err → ∃ r, t.response = some r ∧ r.st ≠ 0 ∧ t.err = r.st) ∧
    t.host = s.host ∧ t.loop = s.loop

/-- No command returns the generator to unseeded, and only SEED makes it seeded; reset makes it unseeded
(10_state.md R34, 70_reset_and_hazards.md R342). -/
def Obligations.NoCommandUnseedsTheGenerator : Prop :=
  (∀ (s t : State) (c : Command) (rest : List HostEvent), s.host = .issue c :: rest → step s = .next t →
    (s.seeded = true → t.seeded = true) ∧
    (s.seeded = false → t.seeded = true → decode c = .instr .seed ∧ t.gen = s.seedbuf)) ∧
  (∀ (s t : State) (rest : List HostEvent), (s.host = .reset :: rest ∨ ∃ c, s.host = .resetDuring c :: rest) →
    step s = .next t → t.seeded = false)

/-- Repeating a command: NOP, CSRR, CNTR, CSRW, SEED and STCLR leave a second time what they left the first, as does
every command that fails; the three reads change nothing but the response when they succeed (20_memory.md R88). -/
def Obligations.RepeatingAnIdempotentCommand : Prop :=
  (∀ (i : Instr) (s t : State), exec i s = .next t →
    (i = .nop ∨ i = .seed ∨ i = .stclr ∨ (∃ a, i = .csrr a) ∨ (∃ a, i = .cntr a) ∨ (∃ a d, i = .csrw a d) ∨
      ∃ r, t.response = some r ∧ r.st ≠ 0) →
    exec i t = .next t) ∧
  (∀ (i : Instr) (s t : State), exec i s = .next t → (i = .nop ∨ (∃ a, i = .csrr a) ∨ ∃ a, i = .cntr a) →
    (∃ q, t = succeeded s q) ∨ t = failed s 2)

/-- The generator never reads the tracker, the mask stage or ERR: two blocks with the same generator, seed buffer and
host, and anything else different, go through the same generator states for as long as they run
(43_tracker.md R230, 41_jump.md R188). -/
def Obligations.GeneratorIsIsolatedFromTheTracker : Prop :=
  ∀ (n : Nat) (s t : State), sameGenerator s t →
    (∃ s' t', core.run n s = .next s' ∧ core.run n t = .next t' ∧ sameGenerator s' t') ∨
    (core.run n s = .refused .overlappingHost ∧ core.run n t = .refused .overlappingHost)

/-- Every turn keeps the invariant: a seeded state is not zero and an unseeded one is; all bit positions of a domain
have counted the same number of samples; min and max are in order and the float ones no NaN; ERR and the status are
legal codes, and an error has Q = 0 and stands in ERR or came after one (10_state.md R32, R52; 60_exceptions.md
R300). -/
def Obligations.EveryStepKeepsTheInvariant : Prop :=
  ∀ s t : State, Inv s → step s = .next t → Inv t

/-- The state after reset has the invariant (10_state.md R57). -/
def Obligations.ResetHasTheInvariant : Prop := Inv State.reset

/-! ## The host's side -/

/-- A word's bytes, and a result's, least significant first (20_memory.md R84). -/
def Obligations.BytesAreLittleEndian : Prop :=
  (∀ w : Word, (wordBytes w).map BitVec.toNat =
    [w.toNat % 256, w.toNat / 256 % 256, w.toNat / 65536 % 256, w.toNat / 16777216]) ∧
  ∀ lo hi : Word, resultBytes (hi ++ lo) = wordBytes lo ++ wordBytes hi

/-- The commands of SEEDV with one to four words, run from any state, write the words and zeros to the seed buffer and
seed the generator with them, unless all are zero, and then SEED raises ZERO_SEED (30_encoding.md R120,
40_generator.md R156). -/
def Obligations.SeedvSeedsTheGenerator : Prop :=
  (∀ a b c d : Word,
    assemble (.seedv [a.toNat]) = some (seedvExpansion ⟨a, 0, 0, 0⟩) ∧
    assemble (.seedv [a.toNat, b.toNat]) = some (seedvExpansion ⟨a, b, 0, 0⟩) ∧
    assemble (.seedv [a.toNat, b.toNat, c.toNat]) = some (seedvExpansion ⟨a, b, c, 0⟩) ∧
    assemble (.seedv [a.toNat, b.toNat, c.toNat, d.toNat]) = some (seedvExpansion ⟨a, b, c, d⟩)) ∧
  (∀ (s : State) (w : Quad),
    core.run 5 { s with host := issueAll (seedvExpansion w) } = .next
      (if w = ⟨0, 0, 0, 0⟩ then failed { s with host := [], seedbuf := w } 6
       else succeeded { s with host := [], seedbuf := w, gen := w, seeded := true } 0))

/-- A host that loops over NEXT without end, or over NEXT.T, is an infinite run: every step answers a next state, the
NEXT number n gets output number n of the generator and nothing is raised; each second step is the host's way back to
the start of its loop (60_exceptions.md R317). How the host's loop stands in the state is the model's choice
(notes/assumptions/19.md). -/
def Obligations.EndlessNextLoopIsAnInfiniteRun : Prop :=
  ∀ (s : State) (t : Bool), s.seeded = true → s.host = [] → s.loop = [.issue (encode (.next t))] →
    ∃ run : Nat → State, run 0 = s ∧ (∀ n, step (run n) = .next (run (n + 1))) ∧
      ∀ n, (run (2 * n)).gen = stepGen^[n] s.gen ∧ (run n).err = s.err ∧
        (run (2 * n + 2)).response = some ⟨0,
          let raw := outGen (stepGen^[n] s.gen)
          fmt s.mask s.shift raw ++ raw⟩
end

