-- ==== Sys2Proof/Config.lean ====
section
/-!
DEFINITION. What the spec leaves to the implementation of the block. Its only such value is the latency LAT(op) of a
command (70_reset_and_hazards.md R352, 92_eei_decisions.md D26). The wiring of the ports, PLACEMENT (20_memory.md
R89), has no value that a rule reads. The fixed constants of the block (shift and rotate amounts, jump constants) are
rules of the spec and stand in Sys2Proof/Machine/Ops.lean.
-/

namespace Sys2Proof.Config

/-- One less than LAT(op), a free value: nothing is known of it (70_reset_and_hazards.md R352). -/
opaque latencyLessOne : BitVec 8 → Nat

/-- LAT(op): the number of cycles the command with opcode `op` takes, a positive number and otherwise open.
No rule of the block depends on it, so no definition of the machine reads it: the model has no time (R352). -/
def latency (op : BitVec 8) : Nat := latencyLessOne op + 1

end Sys2Proof.Config
end

