-- ==== Sys2Proof/Laws/Decode.lean ====
section
/-! SUPPORT. The fields of an encoded command, and what the decoder does with fields (30_encoding.md R111, R116). -/

namespace Sys2Proof

/-- The bits of a command word: OP in bits 7..0, A in 15..8, T in bit 16, zero above (30_encoding.md R111). -/
theorem encode_bit (i : Instr) (k : Nat) :
    (encode i).cmd.getLsbD k =
      if k < 8 then i.opcode.getLsbD k
      else if k < 16 then i.aBits.getLsbD (k - 8)
      else if k = 16 then i.tBit
      else false := by
  have h₀ : (encode i).cmd.getLsbD k = if k < 8 then i.opcode.getLsbD k
      else ((0 : BitVec 15) ++ BitVec.ofBool i.tBit ++ i.aBits).getLsbD (k - 8) := BitVec.getLsbD_append
  rw [h₀]
  by_cases h8 : k < 8
  · simp [h8]
  · rw [if_neg h8, if_neg h8, BitVec.getLsbD_append, BitVec.getLsbD_append]
    by_cases h16 : k < 16
    · simp [show k - 8 < 8 by omega, h16]
    · rw [if_neg (by omega), if_neg h16]
      by_cases ht : k = 16
      · simp [ht]
      · rw [if_neg (by omega), if_neg ht]
        simp

theorem opField_encode (i : Instr) : opField (encode i).cmd = i.opcode := by
  apply BitVec.eq_of_getLsbD_eq
  intro k hk
  simp [opField, encode_bit, hk]

theorem aField_encode (i : Instr) : aField (encode i).cmd = i.aBits := by
  apply BitVec.eq_of_getLsbD_eq
  intro k hk
  simp [aField, encode_bit, hk, show 8 + k < 16 by omega]

theorem tField_encode (i : Instr) : tField (encode i).cmd = i.tBit := by
  simp [tField, encode_bit, - BitVec.getLsbD_eq_getElem]

theorem rsvdField_encode (i : Instr) : rsvdField (encode i).cmd = 0 := by
  apply BitVec.eq_of_getLsbD_eq
  intro k hk
  simp [rsvdField, encode_bit, show ¬ 17 + k < 8 by omega, show ¬ 17 + k < 16 by omega, show 17 + k ≠ 16 by omega]

/-- A word with a reserved bit set is illegal (30_encoding.md R116). -/
theorem decode_reserved {c : Command} (h : rsvdField c.cmd ≠ 0) : decode c = .illegal .reservedBits := if_pos h

/-- A word whose reserved bits are clear decodes by its opcode, and then by its T and A fields (30_encoding.md R116). -/
theorem decode_of_rsvd_zero {c : Command} (h : rsvdField c.cmd = 0) :
    decode c = match ofOpcode (opField c.cmd) (aField c.cmd) (tField c.cmd) c.d with
      | none => .illegal .unknownOpcode
      | some i =>
        if tField c.cmd && opField c.cmd != 0x04 then .illegal .trackFlag
        else if aField c.cmd != 0 && !takesA (opField c.cmd) then .illegal .addressField
        else .instr i := if_neg (by simp [h])

/-- The fields of a command word hold all its bits (30_encoding.md R111). -/
theorem word_eq_of_fields {v w : Word} (ho : opField v = opField w) (ha : aField v = aField w)
    (ht : tField v = tField w) (hr : rsvdField v = rsvdField w) : v = w := by
  apply BitVec.eq_of_getLsbD_eq
  intro k hk
  by_cases h8 : k < 8
  · simpa [opField, h8] using congrArg (·.getLsbD k) ho
  · by_cases h16 : k < 16
    · simpa [aField, show k - 8 < 8 by omega, show 8 + (k - 8) = k by omega] using congrArg (·.getLsbD (k - 8)) ha
    · by_cases h17 : k = 16
      · rw [h17]
        exact ht
      · simpa [rsvdField, show k - 17 < 15 by omega, show 17 + (k - 17) = k by omega] using
          congrArg (·.getLsbD (k - 17)) hr

end Sys2Proof
end

