-- ==== Sys2Proof/Laws/State.lean ====
section
/-! SUPPORT. One lemma for each field after each update of the state, true by unfolding the update once, so that no
later proof unfolds a record update. -/

namespace Sys2Proof.Machine

/-! ### trackInt -/

@[simp] theorem trackInt_gen (s : State) (v : Word) : (s.trackInt v).gen = s.gen := rfl
@[simp] theorem trackInt_seedbuf (s : State) (v : Word) : (s.trackInt v).seedbuf = s.seedbuf := rfl
@[simp] theorem trackInt_seeded (s : State) (v : Word) : (s.trackInt v).seeded = s.seeded := rfl
@[simp] theorem trackInt_mask (s : State) (v : Word) : (s.trackInt v).mask = s.mask := rfl
@[simp] theorem trackInt_shift (s : State) (v : Word) : (s.trackInt v).shift = s.shift := rfl
@[simp] theorem trackInt_tsrc (s : State) (v : Word) : (s.trackInt v).tsrc = s.tsrc := rfl
@[simp] theorem trackInt_err (s : State) (v : Word) : (s.trackInt v).err = s.err := rfl
@[simp] theorem trackInt_int (s : State) (v : Word) : (s.trackInt v).int = minmaxInt (countSample s.int v) v := rfl
@[simp] theorem trackInt_flt (s : State) (v : Word) : (s.trackInt v).flt = s.flt := rfl
@[simp] theorem trackInt_host (s : State) (v : Word) : (s.trackInt v).host = s.host := rfl
@[simp] theorem trackInt_loop (s : State) (v : Word) : (s.trackInt v).loop = s.loop := rfl
@[simp] theorem trackInt_response (s : State) (v : Word) : (s.trackInt v).response = s.response := rfl

/-! ### trackFlt -/

@[simp] theorem trackFlt_gen (s : State) (v : Word) : (s.trackFlt v).gen = s.gen := rfl
@[simp] theorem trackFlt_seedbuf (s : State) (v : Word) : (s.trackFlt v).seedbuf = s.seedbuf := rfl
@[simp] theorem trackFlt_seeded (s : State) (v : Word) : (s.trackFlt v).seeded = s.seeded := rfl
@[simp] theorem trackFlt_mask (s : State) (v : Word) : (s.trackFlt v).mask = s.mask := rfl
@[simp] theorem trackFlt_shift (s : State) (v : Word) : (s.trackFlt v).shift = s.shift := rfl
@[simp] theorem trackFlt_tsrc (s : State) (v : Word) : (s.trackFlt v).tsrc = s.tsrc := rfl
@[simp] theorem trackFlt_err (s : State) (v : Word) : (s.trackFlt v).err = s.err := rfl
@[simp] theorem trackFlt_int (s : State) (v : Word) : (s.trackFlt v).int = s.int := rfl
@[simp] theorem trackFlt_flt (s : State) (v : Word) : (s.trackFlt v).flt = minmaxFlt (countSample s.flt v) v := rfl
@[simp] theorem trackFlt_host (s : State) (v : Word) : (s.trackFlt v).host = s.host := rfl
@[simp] theorem trackFlt_loop (s : State) (v : Word) : (s.trackFlt v).loop = s.loop := rfl
@[simp] theorem trackFlt_response (s : State) (v : Word) : (s.trackFlt v).response = s.response := rfl

/-! ### clearTracker -/

@[simp] theorem clearTracker_gen (s : State) : (s.clearTracker).gen = s.gen := rfl
@[simp] theorem clearTracker_seedbuf (s : State) : (s.clearTracker).seedbuf = s.seedbuf := rfl
@[simp] theorem clearTracker_seeded (s : State) : (s.clearTracker).seeded = s.seeded := rfl
@[simp] theorem clearTracker_mask (s : State) : (s.clearTracker).mask = s.mask := rfl
@[simp] theorem clearTracker_shift (s : State) : (s.clearTracker).shift = s.shift := rfl
@[simp] theorem clearTracker_tsrc (s : State) : (s.clearTracker).tsrc = s.tsrc := rfl
@[simp] theorem clearTracker_err (s : State) : (s.clearTracker).err = s.err := rfl
@[simp] theorem clearTracker_int (s : State) : (s.clearTracker).int = Tracker.emptyInt := rfl
@[simp] theorem clearTracker_flt (s : State) : (s.clearTracker).flt = Tracker.emptyFlt := rfl
@[simp] theorem clearTracker_host (s : State) : (s.clearTracker).host = s.host := rfl
@[simp] theorem clearTracker_loop (s : State) : (s.clearTracker).loop = s.loop := rfl
@[simp] theorem clearTracker_response (s : State) : (s.clearTracker).response = s.response := rfl

/-! ### loadSeed -/

@[simp] theorem loadSeed_gen (s : State) : (s.loadSeed).gen = s.seedbuf := rfl
@[simp] theorem loadSeed_seedbuf (s : State) : (s.loadSeed).seedbuf = s.seedbuf := rfl
@[simp] theorem loadSeed_seeded (s : State) : (s.loadSeed).seeded = true := rfl
@[simp] theorem loadSeed_mask (s : State) : (s.loadSeed).mask = s.mask := rfl
@[simp] theorem loadSeed_shift (s : State) : (s.loadSeed).shift = s.shift := rfl
@[simp] theorem loadSeed_tsrc (s : State) : (s.loadSeed).tsrc = s.tsrc := rfl
@[simp] theorem loadSeed_err (s : State) : (s.loadSeed).err = s.err := rfl
@[simp] theorem loadSeed_int (s : State) : (s.loadSeed).int = s.int := rfl
@[simp] theorem loadSeed_flt (s : State) : (s.loadSeed).flt = s.flt := rfl
@[simp] theorem loadSeed_host (s : State) : (s.loadSeed).host = s.host := rfl
@[simp] theorem loadSeed_loop (s : State) : (s.loadSeed).loop = s.loop := rfl
@[simp] theorem loadSeed_response (s : State) : (s.loadSeed).response = s.response := rfl

/-! ### advance -/

@[simp] theorem advance_gen (s : State) : (s.advance).gen = stepGen s.gen := rfl
@[simp] theorem advance_seedbuf (s : State) : (s.advance).seedbuf = s.seedbuf := rfl
@[simp] theorem advance_seeded (s : State) : (s.advance).seeded = s.seeded := rfl
@[simp] theorem advance_mask (s : State) : (s.advance).mask = s.mask := rfl
@[simp] theorem advance_shift (s : State) : (s.advance).shift = s.shift := rfl
@[simp] theorem advance_tsrc (s : State) : (s.advance).tsrc = s.tsrc := rfl
@[simp] theorem advance_err (s : State) : (s.advance).err = s.err := rfl
@[simp] theorem advance_int (s : State) : (s.advance).int = s.int := rfl
@[simp] theorem advance_flt (s : State) : (s.advance).flt = s.flt := rfl
@[simp] theorem advance_host (s : State) : (s.advance).host = s.host := rfl
@[simp] theorem advance_loop (s : State) : (s.advance).loop = s.loop := rfl
@[simp] theorem advance_response (s : State) : (s.advance).response = s.response := rfl

/-! ### jumpBy -/

@[simp] theorem jumpBy_gen (s : State) (j : Quad) : (s.jumpBy j).gen = jumpPoly j s.gen := rfl
@[simp] theorem jumpBy_seedbuf (s : State) (j : Quad) : (s.jumpBy j).seedbuf = s.seedbuf := rfl
@[simp] theorem jumpBy_seeded (s : State) (j : Quad) : (s.jumpBy j).seeded = s.seeded := rfl
@[simp] theorem jumpBy_mask (s : State) (j : Quad) : (s.jumpBy j).mask = s.mask := rfl
@[simp] theorem jumpBy_shift (s : State) (j : Quad) : (s.jumpBy j).shift = s.shift := rfl
@[simp] theorem jumpBy_tsrc (s : State) (j : Quad) : (s.jumpBy j).tsrc = s.tsrc := rfl
@[simp] theorem jumpBy_err (s : State) (j : Quad) : (s.jumpBy j).err = s.err := rfl
@[simp] theorem jumpBy_int (s : State) (j : Quad) : (s.jumpBy j).int = s.int := rfl
@[simp] theorem jumpBy_flt (s : State) (j : Quad) : (s.jumpBy j).flt = s.flt := rfl
@[simp] theorem jumpBy_host (s : State) (j : Quad) : (s.jumpBy j).host = s.host := rfl
@[simp] theorem jumpBy_loop (s : State) (j : Quad) : (s.jumpBy j).loop = s.loop := rfl
@[simp] theorem jumpBy_response (s : State) (j : Quad) : (s.jumpBy j).response = s.response := rfl

/-! ### respond -/

@[simp] theorem respond_gen (s : State) (q : DWord) : (s.respond q).gen = s.gen := rfl
@[simp] theorem respond_seedbuf (s : State) (q : DWord) : (s.respond q).seedbuf = s.seedbuf := rfl
@[simp] theorem respond_seeded (s : State) (q : DWord) : (s.respond q).seeded = s.seeded := rfl
@[simp] theorem respond_mask (s : State) (q : DWord) : (s.respond q).mask = s.mask := rfl
@[simp] theorem respond_shift (s : State) (q : DWord) : (s.respond q).shift = s.shift := rfl
@[simp] theorem respond_tsrc (s : State) (q : DWord) : (s.respond q).tsrc = s.tsrc := rfl
@[simp] theorem respond_err (s : State) (q : DWord) : (s.respond q).err = s.err := rfl
@[simp] theorem respond_int (s : State) (q : DWord) : (s.respond q).int = s.int := rfl
@[simp] theorem respond_flt (s : State) (q : DWord) : (s.respond q).flt = s.flt := rfl
@[simp] theorem respond_host (s : State) (q : DWord) : (s.respond q).host = s.host := rfl
@[simp] theorem respond_loop (s : State) (q : DWord) : (s.respond q).loop = s.loop := rfl
@[simp] theorem respond_response (s : State) (q : DWord) : (s.respond q).response = some ⟨okCode, q⟩ := rfl

/-! ### raise -/

@[simp] theorem raise_gen (s : State) (e : ErrorCode) : (s.raise e).gen = s.gen := rfl
@[simp] theorem raise_seedbuf (s : State) (e : ErrorCode) : (s.raise e).seedbuf = s.seedbuf := rfl
@[simp] theorem raise_seeded (s : State) (e : ErrorCode) : (s.raise e).seeded = s.seeded := rfl
@[simp] theorem raise_mask (s : State) (e : ErrorCode) : (s.raise e).mask = s.mask := rfl
@[simp] theorem raise_shift (s : State) (e : ErrorCode) : (s.raise e).shift = s.shift := rfl
@[simp] theorem raise_tsrc (s : State) (e : ErrorCode) : (s.raise e).tsrc = s.tsrc := rfl
@[simp] theorem raise_err (s : State) (e : ErrorCode) : (s.raise e).err = stickyErr s.err (errorCode e) := rfl
@[simp] theorem raise_int (s : State) (e : ErrorCode) : (s.raise e).int = s.int := rfl
@[simp] theorem raise_flt (s : State) (e : ErrorCode) : (s.raise e).flt = s.flt := rfl
@[simp] theorem raise_host (s : State) (e : ErrorCode) : (s.raise e).host = s.host := rfl
@[simp] theorem raise_loop (s : State) (e : ErrorCode) : (s.raise e).loop = s.loop := rfl
@[simp] theorem raise_response (s : State) (e : ErrorCode) : (s.raise e).response = some ⟨errorCode e, 0⟩ := rfl

/-! ### hardReset -/

@[simp] theorem hardReset_gen (s : State) : (s.hardReset).gen = State.reset.gen := rfl
@[simp] theorem hardReset_seedbuf (s : State) : (s.hardReset).seedbuf = State.reset.seedbuf := rfl
@[simp] theorem hardReset_seeded (s : State) : (s.hardReset).seeded = State.reset.seeded := rfl
@[simp] theorem hardReset_mask (s : State) : (s.hardReset).mask = State.reset.mask := rfl
@[simp] theorem hardReset_shift (s : State) : (s.hardReset).shift = State.reset.shift := rfl
@[simp] theorem hardReset_tsrc (s : State) : (s.hardReset).tsrc = State.reset.tsrc := rfl
@[simp] theorem hardReset_err (s : State) : (s.hardReset).err = State.reset.err := rfl
@[simp] theorem hardReset_int (s : State) : (s.hardReset).int = State.reset.int := rfl
@[simp] theorem hardReset_flt (s : State) : (s.hardReset).flt = State.reset.flt := rfl
@[simp] theorem hardReset_host (s : State) : (s.hardReset).host = s.host := rfl
@[simp] theorem hardReset_loop (s : State) : (s.hardReset).loop = s.loop := rfl
@[simp] theorem hardReset_response (s : State) : (s.hardReset).response = State.reset.response := rfl

/-! ### present -/

@[simp] theorem present_gen (s : State) (c : Command) : (s.present c).gen = s.gen := rfl
@[simp] theorem present_seedbuf (s : State) (c : Command) : (s.present c).seedbuf = s.seedbuf := rfl
@[simp] theorem present_seeded (s : State) (c : Command) : (s.present c).seeded = s.seeded := rfl
@[simp] theorem present_mask (s : State) (c : Command) : (s.present c).mask = s.mask := rfl
@[simp] theorem present_shift (s : State) (c : Command) : (s.present c).shift = s.shift := rfl
@[simp] theorem present_tsrc (s : State) (c : Command) : (s.present c).tsrc = s.tsrc := rfl
@[simp] theorem present_err (s : State) (c : Command) : (s.present c).err = s.err := rfl
@[simp] theorem present_int (s : State) (c : Command) : (s.present c).int = s.int := rfl
@[simp] theorem present_flt (s : State) (c : Command) : (s.present c).flt = s.flt := rfl
@[simp] theorem present_host (s : State) (c : Command) : (s.present c).host = .issue c :: s.host := rfl
@[simp] theorem present_loop (s : State) (c : Command) : (s.present c).loop = s.loop := rfl
@[simp] theorem present_response (s : State) (c : Command) : (s.present c).response = s.response := rfl

/-! ### beginLoop -/

@[simp] theorem beginLoop_gen (s : State) : (s.beginLoop).gen = s.gen := rfl
@[simp] theorem beginLoop_seedbuf (s : State) : (s.beginLoop).seedbuf = s.seedbuf := rfl
@[simp] theorem beginLoop_seeded (s : State) : (s.beginLoop).seeded = s.seeded := rfl
@[simp] theorem beginLoop_mask (s : State) : (s.beginLoop).mask = s.mask := rfl
@[simp] theorem beginLoop_shift (s : State) : (s.beginLoop).shift = s.shift := rfl
@[simp] theorem beginLoop_tsrc (s : State) : (s.beginLoop).tsrc = s.tsrc := rfl
@[simp] theorem beginLoop_err (s : State) : (s.beginLoop).err = s.err := rfl
@[simp] theorem beginLoop_int (s : State) : (s.beginLoop).int = s.int := rfl
@[simp] theorem beginLoop_flt (s : State) : (s.beginLoop).flt = s.flt := rfl
@[simp] theorem beginLoop_host (s : State) : (s.beginLoop).host = s.loop := rfl
@[simp] theorem beginLoop_loop (s : State) : (s.beginLoop).loop = s.loop := rfl
@[simp] theorem beginLoop_response (s : State) : (s.beginLoop).response = s.response := rfl

/-- A host without a loop stays done: the state is the same. -/
theorem beginLoop_of_done {s : State} (hh : s.host = []) (hl : s.loop = []) : s.beginLoop = s := by
  cases s; cases hh; cases hl; rfl

/-! ### writeCsr: it changes only the register it names (10_state.md R45 (e)) -/

@[simp] theorem writeCsr_gen (s : State) (c : Csr) (d : Word) : (s.writeCsr c d).gen = s.gen := by cases c <;> rfl
@[simp] theorem writeCsr_seeded (s : State) (c : Csr) (d : Word) : (s.writeCsr c d).seeded = s.seeded := by cases c <;> rfl
@[simp] theorem writeCsr_err (s : State) (c : Csr) (d : Word) : (s.writeCsr c d).err = s.err := by cases c <;> rfl
@[simp] theorem writeCsr_int (s : State) (c : Csr) (d : Word) : (s.writeCsr c d).int = s.int := by cases c <;> rfl
@[simp] theorem writeCsr_flt (s : State) (c : Csr) (d : Word) : (s.writeCsr c d).flt = s.flt := by cases c <;> rfl
@[simp] theorem writeCsr_host (s : State) (c : Csr) (d : Word) : (s.writeCsr c d).host = s.host := by cases c <;> rfl
@[simp] theorem writeCsr_loop (s : State) (c : Csr) (d : Word) : (s.writeCsr c d).loop = s.loop := by cases c <;> rfl
@[simp] theorem writeCsr_response (s : State) (c : Csr) (d : Word) : (s.writeCsr c d).response = s.response := by cases c <;> rfl

/-- What CSRW leaves in each register that it can write. -/
theorem writeCsr_written (s : State) (d : Word) :
    s.writeCsr .mask d = { s with mask := d } ∧
    s.writeCsr .shift d = { s with shift := d.setWidth 5 } ∧
    s.writeCsr .ctrl d = { s with tsrc := d.getLsbD 0 } ∧
    s.writeCsr .seedbuf0 d = { s with seedbuf := { s.seedbuf with w0 := d } } ∧
    s.writeCsr .seedbuf1 d = { s with seedbuf := { s.seedbuf with w1 := d } } ∧
    s.writeCsr .seedbuf2 d = { s with seedbuf := { s.seedbuf with w2 := d } } ∧
    s.writeCsr .seedbuf3 d = { s with seedbuf := { s.seedbuf with w3 := d } } := ⟨rfl, rfl, rfl, rfl, rfl, rfl, rfl⟩

/-- A read-only register is not written. -/
theorem writeCsr_readOnly (s : State) (c : Csr) (d : Word) (h : csrReadOnly c = true) : s.writeCsr c d = s := by
  cases c <;> first | rfl | exact absurd h (by decide)

end Sys2Proof.Machine
end

