-- ==== Sys2Proof/Laws/Ops.lean ====
section
/-! SUPPORT. One lemma for each shared operation, saying what it does: the tracker's updates bit by bit, the sticky
error field, exclusive-or of four-word vectors, the register and counter names, and the ways a command ends. -/

namespace Sys2Proof.Machine

/-! ## Vectors -/

@[simp] theorem quadXor_zero (q : Quad) : quadXor q quadZero = q := by simp [quadXor, quadZero]

@[simp] theorem quadXor_zero_left (q : Quad) : quadXor quadZero q = q := by simp [quadXor, quadZero]

@[simp] theorem quadXor_self (q : Quad) : quadXor q q = quadZero := by simp [quadXor, quadZero]

theorem quadXor_comm (p q : Quad) : quadXor p q = quadXor q p := by simp [quadXor, BitVec.xor_comm]

theorem quadXor_assoc (p q r : Quad) : quadXor (quadXor p q) r = quadXor p (quadXor q r) := by
  simp [quadXor, BitVec.xor_assoc]

theorem quadXor_left_comm (p q r : Quad) : quadXor p (quadXor q r) = quadXor q (quadXor p r) := by
  rw [← quadXor_assoc, quadXor_comm p q, quadXor_assoc]

theorem allZero_iff (q : Quad) : allZero q = true ↔ q = quadZero := by
  obtain ⟨a, b, c, d⟩ := q
  simp [allZero, quadZero, and_assoc]

theorem allZero_eq_false_iff (q : Quad) : allZero q = false ↔ q ≠ quadZero := by
  rw [Ne, ← allZero_iff, Bool.not_eq_true]

/-! ## Generator and jump -/

/-- rotl32 of 00_scope.md R10 is the library's rotation, for the amounts it is defined on. -/
theorem rotl32_eq_rotateLeft (x : Word) (k : Nat) (h : k < 32) : rotl32 x k = x.rotateLeft k := by
  rw [BitVec.rotateLeft_eq_rotateLeftAux_of_lt h]
  rfl

@[simp] theorem stepGen_zero : stepGen quadZero = quadZero := by decide

@[simp] theorem jumpLoop_zero_iters (j : Quad) (k : Nat) (jacc s : Quad) : jumpLoop j 0 k jacc s = jacc := rfl

/-- One iteration of the polynomial evaluation (41_jump.md R184). -/
theorem jumpLoop_succ (j : Quad) (n k : Nat) (jacc s : Quad) :
    jumpLoop j (n + 1) k jacc s =
      jumpLoop j n (k + 1) (if quadBit j k then quadXor jacc s else jacc) (stepGen s) := rfl

/-- The accumulator the loop starts from is only added to what it collects. -/
theorem jumpLoop_acc (j : Quad) (n k : Nat) (jacc s : Quad) :
    jumpLoop j n k jacc s = quadXor jacc (jumpLoop j n k quadZero s) := by
  induction n generalizing k jacc s with
  | zero => simp
  | succ n ih =>
    rw [jumpLoop_succ, jumpLoop_succ, ih, ih (k + 1) (if quadBit j k then quadXor quadZero s else quadZero)]
    by_cases h : quadBit j k
    · simp [h, quadXor_assoc]
    · simp [h]

@[simp] theorem jumpLoop_of_zero (j : Quad) (n k : Nat) : jumpLoop j n k quadZero quadZero = quadZero := by
  induction n generalizing k with
  | zero => rfl
  | succ n ih => simp [jumpLoop_succ, ih]

/-- The equation of jumpPoly (41_jump.md R184). -/
theorem jumpPoly_eq (j s : Quad) : jumpPoly j s = jumpLoop j 128 0 quadZero s := by rw [jumpPoly]

@[simp] theorem jumpPoly_zero (j : Quad) : jumpPoly j quadZero = quadZero := by
  rw [jumpPoly_eq]
  exact jumpLoop_of_zero j 128 0

/-! ## Mask stage -/

@[simp] theorem fmt_mask_zero (shift : BitVec 5) (raw : Word) : fmt 0#32 shift raw = raw := rfl

theorem fmt_of_mask_ne_zero {mask : Word} (h : mask ≠ 0) (shift : BitVec 5) (raw : Word) :
    fmt mask shift raw = (raw >>> shift.toNat) &&& mask := if_neg h

theorem popcount_le (v : Word) : popcount v ≤ 32 := by
  simpa [popcount] using List.countP_le_length (p := fun k => v.getLsbD k) (l := List.range 32)

/-! ## Tracker -/

@[simp] theorem countSample_set (t : Tracker) (v : Word) (k : Nat) (hk : k < 32) :
    (countSample t v).set[k] = if v.getLsbD k then t.set[k] + 1 else t.set[k] := by
  simp [countSample]

@[simp] theorem countSample_clr (t : Tracker) (v : Word) (k : Nat) (hk : k < 32) :
    (countSample t v).clr[k] = if v.getLsbD k then t.clr[k] else t.clr[k] + 1 := by
  simp [countSample]

@[simp] theorem countSample_min (t : Tracker) (v : Word) : (countSample t v).min = t.min := rfl
@[simp] theorem countSample_max (t : Tracker) (v : Word) : (countSample t v).max = t.max := rfl
@[simp] theorem minmaxInt_set (t : Tracker) (v : Word) : (minmaxInt t v).set = t.set := rfl
@[simp] theorem minmaxInt_clr (t : Tracker) (v : Word) : (minmaxInt t v).clr = t.clr := rfl
@[simp] theorem minmaxFlt_set (t : Tracker) (v : Word) : (minmaxFlt t v).set = t.set := rfl
@[simp] theorem minmaxFlt_clr (t : Tracker) (v : Word) : (minmaxFlt t v).clr = t.clr := rfl

/-- Exactly one counter of a pair goes up, so the pair's sum goes up by one (43_tracker.md R231). -/
theorem countSample_pair (t : Tracker) (v : Word) (k : Nat) (hk : k < 32) :
    (countSample t v).set[k] + (countSample t v).clr[k] = t.set[k] + t.clr[k] + 1 := by
  rw [countSample_set, countSample_clr]
  split
  · rw [BitVec.add_assoc, BitVec.add_comm 1, ← BitVec.add_assoc]
  · rw [BitVec.add_assoc]

/-- Two counter files are equal when every counter is. -/
theorem counterFile_ext {f g : CounterFile} (h : ∀ k : Fin 32, f[k] = g[k]) : f = g :=
  Vector.ext fun i hi => h ⟨i, hi⟩

/-- Two domains are equal when their counters, mins and maxes are. -/
theorem tracker_ext {t u : Tracker} (hs : ∀ k : Fin 32, t.set[k] = u.set[k]) (hc : ∀ k : Fin 32, t.clr[k] = u.clr[k])
    (hmin : t.min = u.min) (hmax : t.max = u.max) : t = u := by
  obtain ⟨s₁, c₁, m₁, x₁⟩ := t
  obtain ⟨s₂, c₂, m₂, x₂⟩ := u
  obtain rfl : s₁ = s₂ := counterFile_ext hs
  obtain rfl : c₁ = c₂ := counterFile_ext hc
  obtain rfl : m₁ = m₂ := hmin
  obtain rfl : x₁ = x₂ := hmax
  rfl

@[simp] theorem counterFile_zero (k : Nat) (hk : k < 32) : CounterFile.zero[k] = 0#64 := by simp [CounterFile.zero]

/-! ## Flags -/

@[simp] theorem stickyErr_zero (c : BitVec 4) : stickyErr 0#4 c = c := rfl

theorem stickyErr_of_ne_zero {err : BitVec 4} (h : err ≠ 0) (c : BitVec 4) : stickyErr err c = err := if_neg h

theorem errorCode_ne_ok (e : ErrorCode) : errorCode e ≠ okCode := by cases e <;> decide

theorem errorCode_legal (e : ErrorCode) : legalCode (errorCode e) := by cases e <;> decide

theorem stickyErr_ne_ok (err : BitVec 4) (e : ErrorCode) : stickyErr err (errorCode e) ≠ okCode := by
  by_cases h : err = 0
  · rw [h]
    exact errorCode_ne_ok e
  · rw [stickyErr_of_ne_zero h]
    exact h

/-- flt_lt holds of no pattern and itself. -/
theorem fltLt_irrefl (a : Word) : fltLt a a = false := by
  unfold fltLt
  cases fltIsNaN a <;> cases fltIsZero a <;> cases fltSign a <;> simp [BitVec.ult]

/-- A NaN is unordered (43_tracker.md R235, R238). -/
theorem fltLt_nan_left {a : Word} (h : fltIsNaN a = true) (b : Word) : fltLt a b = false := by simp [fltLt, h]

theorem fltLt_nan_right {b : Word} (h : fltIsNaN b = true) (a : Word) : fltLt a b = false := by simp [fltLt, h]

/-! ## Names of registers and counters -/

@[simp] theorem csrAt_csrAddress (c : Csr) : csrAt (csrAddress c) = some c := by cases c <;> rfl

theorem csrAddress_of_csrAt (a : BitVec 8) (c : Csr) (h : csrAt a = some c) : csrAddress c = a := by
  revert a c
  decide +kernel

@[simp] theorem counterAt_counterAddress (c : CounterId) : counterAt (counterAddress c) = some c := by
  obtain ⟨dom, kind, bit⟩ := c
  cases dom <;> cases kind <;> revert bit <;> decide +kernel

theorem counterAddress_of_counterAt (a : BitVec 8) (c : CounterId) (h : counterAt a = some c) :
    counterAddress c = a := by
  have key : ∀ a : BitVec 8, (counterAt a).all fun c => counterAddress c == a := by decide +kernel
  have := key a
  rw [h] at this
  simpa using this

/-- CNTR names no counter exactly where A[7] = 1 (43_tracker.md R239). -/
theorem counterAt_eq_none_iff (a : BitVec 8) : counterAt a = none ↔ a.getLsbD 7 = true := by
  unfold counterAt
  split <;> simp_all

/-! ## How a command ends -/

theorem ok_eq (s : State) (q : DWord) : ok s q = .next (s.respond q) := rfl

theorem fail_eq (s : State) (e : ErrorCode) : fail s e = .next (s.raise e) := rfl

end Sys2Proof.Machine
end

