-- ==== Sys2Proof/Laws/Exec.lean ====
section
/-! SUPPORT. What a command and a turn can do, said once: every command answers a next state, which is either the
effect of the command with its result or the record of one error; and a turn takes one host event. -/

namespace Sys2Proof.Machine

/-- When a command raises which error (60_exceptions.md R304, R305). -/
def Raises (s : State) (e : ErrorCode) : Instr → Prop
  | .nop => False
  | .csrr a => csrAt a = none ∧ e = .badAddr
  | .csrw a d =>
    (csrAt a = none ∧ e = .badAddr) ∨
    ∃ c, csrAt a = some c ∧
      ((csrReadOnly c = true ∧ e = .readOnly) ∨
        (csrReadOnly c = false ∧ csrAccepts c d = false ∧ e = .badValue))
  | .seed => allZero s.seedbuf = true ∧ e = .zeroSeed
  | .next _ => s.seeded = false ∧ e = .unseeded
  | .jump => s.seeded = false ∧ e = .unseeded
  | .ljump => s.seeded = false ∧ e = .unseeded
  | .trki _ => False
  | .trkf _ => False
  | .cntr a => counterAt a = none ∧ e = .badAddr
  | .stclr => False

/-- The state a command leaves, and the result it gives, where it succeeds. -/
def Effect (s s' : State) (q : DWord) : Instr → Prop
  | .nop => s' = s ∧ q = 0
  | .csrr a => ∃ c, csrAt a = some c ∧ s' = s ∧ q = (s.readCsr c).setWidth 64
  | .csrw a d => ∃ c, csrAt a = some c ∧ csrReadOnly c = false ∧ csrAccepts c d = true ∧
      s' = s.writeCsr c d ∧ q = 0
  | .seed => allZero s.seedbuf = false ∧ s' = s.loadSeed ∧ q = 0
  | .next t => s.seeded = true ∧
      s' = (if t then s.advance.trackInt (s.trackedWord (outGen s.gen) (fmt s.mask s.shift (outGen s.gen)))
        else s.advance) ∧
      q = fmt s.mask s.shift (outGen s.gen) ++ outGen s.gen
  | .jump => s.seeded = true ∧ s' = s.jumpBy jumpConst ∧ q = 0
  | .ljump => s.seeded = true ∧ s' = s.jumpBy ljumpConst ∧ q = 0
  | .trki d => s' = s.trackInt d ∧ q = 0
  | .trkf d => s' = s.trackFlt d ∧ q = 0
  | .cntr a => ∃ c, counterAt a = some c ∧ s' = s ∧ q = s.counter c
  | .stclr => s' = s.clearTracker ∧ q = 0

/-- Everything a command can do: raise one error, or take its effect and respond. -/
theorem exec_cases (i : Instr) (s : State) :
    (∃ e, Raises s e i ∧ exec i s = .next (s.raise e)) ∨
    (∃ s' q, Effect s s' q i ∧ exec i s = .next (s'.respond q)) := by
  cases i with
  | nop => exact .inr ⟨s, 0, ⟨rfl, rfl⟩, rfl⟩
  | csrr a =>
    cases h : csrAt a with
    | none => exact .inl ⟨.badAddr, ⟨h, rfl⟩, by simp [exec, execCsrr, h, fail]⟩
    | some c => exact .inr ⟨s, _, ⟨c, h, rfl, rfl⟩, by simp [exec, execCsrr, h, ok]⟩
  | csrw a d =>
    cases h : csrAt a with
    | none => exact .inl ⟨.badAddr, .inl ⟨h, rfl⟩, by simp [exec, execCsrw, h, fail]⟩
    | some c =>
      cases hr : csrReadOnly c with
      | true => exact .inl ⟨.readOnly, .inr ⟨c, h, .inl ⟨hr, rfl⟩⟩, by simp [exec, execCsrw, h, hr, fail]⟩
      | false =>
        cases hv : csrAccepts c d with
        | true => exact .inr ⟨_, 0, ⟨c, h, hr, hv, rfl, rfl⟩, by simp [exec, execCsrw, h, hr, hv, ok]⟩
        | false =>
          exact .inl ⟨.badValue, .inr ⟨c, h, .inr ⟨hr, hv, rfl⟩⟩, by simp [exec, execCsrw, h, hr, hv, fail]⟩
  | seed =>
    cases h : allZero s.seedbuf with
    | true => exact .inl ⟨.zeroSeed, ⟨h, rfl⟩, by simp [exec, execSeed, h, fail]⟩
    | false => exact .inr ⟨_, 0, ⟨h, rfl, rfl⟩, by simp [exec, execSeed, h, ok]⟩
  | next t =>
    cases h : s.seeded with
    | false => exact .inl ⟨.unseeded, ⟨h, rfl⟩, by simp [exec, execNext, h, fail]⟩
    | true => exact .inr ⟨_, _, ⟨h, rfl, rfl⟩, by simp [exec, execNext, h, ok]⟩
  | jump =>
    cases h : s.seeded with
    | false => exact .inl ⟨.unseeded, ⟨h, rfl⟩, by simp [exec, execJump, h, fail]⟩
    | true => exact .inr ⟨_, 0, ⟨h, rfl, rfl⟩, by simp [exec, execJump, h, ok]⟩
  | ljump =>
    cases h : s.seeded with
    | false => exact .inl ⟨.unseeded, ⟨h, rfl⟩, by simp [exec, execLjump, h, fail]⟩
    | true => exact .inr ⟨_, 0, ⟨h, rfl, rfl⟩, by simp [exec, execLjump, h, ok]⟩
  | trki d => exact .inr ⟨_, 0, ⟨rfl, rfl⟩, rfl⟩
  | trkf d => exact .inr ⟨_, 0, ⟨rfl, rfl⟩, rfl⟩
  | cntr a =>
    cases h : counterAt a with
    | none => exact .inl ⟨.badAddr, ⟨h, rfl⟩, by simp [exec, execCntr, h, fail]⟩
    | some c => exact .inr ⟨s, _, ⟨c, h, rfl, rfl⟩, by simp [exec, execCntr, h, ok]⟩
  | stclr => exact .inr ⟨_, 0, ⟨rfl, rfl⟩, rfl⟩

/-- Where a command succeeds, ERR, the host's list and its loop are as they were. -/
theorem effect_err_host {s s' : State} {q : DWord} {i : Instr} (h : Effect s s' q i) :
    s'.err = s.err ∧ s'.host = s.host ∧ s'.loop = s.loop := by
  cases i with
  | nop => obtain ⟨rfl, _⟩ := h; exact ⟨rfl, rfl, rfl⟩
  | csrr a => obtain ⟨c, _, rfl, _⟩ := h; exact ⟨rfl, rfl, rfl⟩
  | csrw a d => obtain ⟨c, _, _, _, rfl, _⟩ := h; exact ⟨writeCsr_err s c d, writeCsr_host s c d, writeCsr_loop s c d⟩
  | seed => obtain ⟨_, rfl, _⟩ := h; exact ⟨rfl, rfl, rfl⟩
  | next t => obtain ⟨_, rfl, _⟩ := h; cases t <;> exact ⟨rfl, rfl, rfl⟩
  | jump => obtain ⟨_, rfl, _⟩ := h; exact ⟨rfl, rfl, rfl⟩
  | ljump => obtain ⟨_, rfl, _⟩ := h; exact ⟨rfl, rfl, rfl⟩
  | trki d => obtain ⟨rfl, _⟩ := h; exact ⟨rfl, rfl, rfl⟩
  | trkf d => obtain ⟨rfl, _⟩ := h; exact ⟨rfl, rfl, rfl⟩
  | cntr a => obtain ⟨c, _, rfl, _⟩ := h; exact ⟨rfl, rfl, rfl⟩
  | stclr => obtain ⟨rfl, _⟩ := h; exact ⟨rfl, rfl, rfl⟩

/-- A word that decodes to ILLEGAL raises ILLEGAL (30_encoding.md R116). -/
theorem runCommand_illegal {c : Command} {why : Illegal} (h : decode c = .illegal why) (s : State) :
    runCommand c s = .next (s.raise .illegal) := by simp [runCommand, h, fail]

/-- A word that decodes to a command runs it. -/
theorem runCommand_instr {c : Command} {i : Instr} (h : decode c = .instr i) (s : State) :
    runCommand c s = exec i s := by simp [runCommand, h]

theorem step_eq_turn (s : State) : step s = turn s := rfl

/-- A turn without a host event (60_exceptions.md R315, R317). -/
theorem turn_idle {s : State} (h : s.host = []) : turn s = .next s.beginLoop := by simp [turn, h]

/-- A turn takes the first event of the host. -/
theorem turn_event {s : State} {e : HostEvent} {rest : List HostEvent} (h : s.host = e :: rest) :
    turn s = serve e { s with host := rest } := by simp [turn, h]

/-- A command presented next is the one the next turn runs, in the state it was presented to. -/
theorem turn_present (s : State) (c : Command) : turn (s.present c) = runCommand c s := rfl

/-- Everything a step can do with a command at the head of the host's list: raise ILLEGAL, raise one of the command's
own errors, or take the command's effect and respond. -/
theorem step_issue_cases {s t : State} {c : Command} {rest : List HostEvent} (hh : s.host = .issue c :: rest)
    (h : step s = .next t) :
    (∃ why, decode c = .illegal why ∧ t = State.raise { s with host := rest } .illegal) ∨
    (∃ i e, decode c = .instr i ∧ Raises { s with host := rest } e i ∧ t = State.raise { s with host := rest } e) ∨
    (∃ i s' q, decode c = .instr i ∧ Effect { s with host := rest } s' q i ∧ t = s'.respond q) := by
  rw [step_eq_turn, turn_event hh] at h
  change runCommand c _ = _ at h
  cases hd : decode c with
  | illegal why =>
    rw [runCommand_illegal hd] at h
    cases h
    exact .inl ⟨why, rfl, rfl⟩
  | instr i =>
    rw [runCommand_instr hd] at h
    rcases exec_cases i { s with host := rest } with ⟨e, he, h'⟩ | ⟨s', q, he, h'⟩ <;> rw [h'] at h <;> cases h
    · exact .inr (.inl ⟨i, e, rfl, he, rfl⟩)
    · exact .inr (.inr ⟨i, s', q, rfl, he, rfl⟩)

/-- Everything a step can do: hold the block while the host begins its loop, run the command presented, or reset. -/
theorem step_cases {s t : State} (h : step s = .next t) :
    (s.host = [] ∧ t = s.beginLoop) ∨ (∃ c rest, s.host = .issue c :: rest) ∨
    (∃ rest, (s.host = .reset :: rest ∨ ∃ c, s.host = .resetDuring c :: rest) ∧
      t = { State.reset with host := rest, loop := s.loop }) := by
  rw [step_eq_turn] at h
  cases hh : s.host with
  | nil =>
    rw [turn_idle hh] at h
    cases h
    exact .inl ⟨rfl, rfl⟩
  | cons e rest =>
    rw [turn_event hh] at h
    cases e with
    | issue c => exact .inr (.inl ⟨c, rest, rfl⟩)
    | reset =>
      cases h
      exact .inr (.inr ⟨rest, .inl rfl, rfl⟩)
    | resetDuring c =>
      cases h
      exact .inr (.inr ⟨rest, .inr ⟨c, rfl⟩, rfl⟩)
    | overlap c => cases h

end Sys2Proof.Machine
end

