-- ==== Sys2Proof/Laws/PerInstr.lean ====
section
/-! SUPPORT. Statements about every command as syntax, one lemma for each constructor of Instr. The family
EncodeMatchesRow says that the encoded word of a command matches the row of its own mnemonic in the table of
30_encoding.md R115 and no other row. -/

namespace Sys2Proof.Laws

/-- The encoded word of `i` matches a row of the table exactly where the row has the mnemonic of `i`. -/
def EncodeMatchesRow.Statement (i : Instr) : Prop :=
  ∀ r ∈ opTable, r.matchesWord (encode i).cmd = (r.mnemonic == i.mnemonic)

theorem EncodeMatchesRow.nop : EncodeMatchesRow.Statement .nop := by unfold EncodeMatchesRow.Statement; decide +kernel

theorem EncodeMatchesRow.csrr (a : BitVec 8) : EncodeMatchesRow.Statement (.csrr a) := by
  have key : ∀ a : BitVec 8, ∀ r ∈ opTable, r.matchesWord (encode (.csrr a)).cmd = (r.mnemonic == "CSRR") := by
    decide +kernel
  exact key a

theorem EncodeMatchesRow.csrw (a : BitVec 8) (d : Word) : EncodeMatchesRow.Statement (.csrw a d) := by
  have key : ∀ a : BitVec 8, ∀ r ∈ opTable, r.matchesWord (encode (.csrw a 0)).cmd = (r.mnemonic == "CSRW") := by
    decide +kernel
  exact key a

theorem EncodeMatchesRow.seed : EncodeMatchesRow.Statement .seed := by unfold EncodeMatchesRow.Statement; decide +kernel

theorem EncodeMatchesRow.next (t : Bool) : EncodeMatchesRow.Statement (.next t) := by
  unfold EncodeMatchesRow.Statement
  revert t
  decide +kernel

theorem EncodeMatchesRow.jump : EncodeMatchesRow.Statement .jump := by unfold EncodeMatchesRow.Statement; decide +kernel

theorem EncodeMatchesRow.ljump : EncodeMatchesRow.Statement .ljump := by
  unfold EncodeMatchesRow.Statement
  decide +kernel

theorem EncodeMatchesRow.trki (d : Word) : EncodeMatchesRow.Statement (.trki d) := by
  have key : ∀ r ∈ opTable, r.matchesWord (encode (.trki 0)).cmd = (r.mnemonic == "TRKI") := by decide +kernel
  exact key

theorem EncodeMatchesRow.trkf (d : Word) : EncodeMatchesRow.Statement (.trkf d) := by
  have key : ∀ r ∈ opTable, r.matchesWord (encode (.trkf 0)).cmd = (r.mnemonic == "TRKF") := by decide +kernel
  exact key

theorem EncodeMatchesRow.cntr (a : BitVec 8) : EncodeMatchesRow.Statement (.cntr a) := by
  have key : ∀ a : BitVec 8, ∀ r ∈ opTable, r.matchesWord (encode (.cntr a)).cmd = (r.mnemonic == "CNTR") := by
    decide +kernel
  exact key a

theorem EncodeMatchesRow.stclr : EncodeMatchesRow.Statement .stclr := by
  unfold EncodeMatchesRow.Statement
  decide +kernel

end Sys2Proof.Laws
end

