-- ==== Sys2Proof/Tests/Slice0.lean ====
section
/-! SUPPORT. Small tests of the model, their expected values taken from spec/95_test_vectors.md or by hand from a rule,
and for every statement with hypotheses a concrete state and operands that meet them. -/

namespace Sys2Proof.Tests

open Sys2Proof Sys2Proof.Machine

/-! ## Helpers -/

/-- The state after the block has answered one command, none where the step does not answer a next state. -/
def after (s : State) (cmd d : Word) : Option State :=
  match step (s.present ⟨cmd, d⟩) with
  | .next t => some t
  | .fault _ => none
  | .refused _ => none

/-- The response to one command. -/
def reply (s : State) (cmd d : Word) : Option Response := (after s cmd d).bind State.response

/-- A seeded block with the given generator state, all else as after reset. -/
def seededWith (a b c d : Word) : State := { State.reset with gen := ⟨a, b, c, d⟩, seeded := true }

/-- A host with one event left. -/
def withEvent (s : State) (e : HostEvent) : State := { s with host := [e] }

/-! ## WellFormed: an ill-formed term for each check, refused, beside its well-formed neighbour -/

theorem test_wf_csrr_unmapped : ¬ (Instr.csrr 0x05).WellFormed ∧ (Instr.csrr 0x04).WellFormed := by decide
theorem test_wf_csrr_above_map : ¬ (Instr.csrr 0x14).WellFormed ∧ (Instr.csrr 0x13).WellFormed := by decide
theorem test_wf_csrw_unmapped : ¬ (Instr.csrw 0x07 0).WellFormed ∧ (Instr.csrw 0x08 0).WellFormed := by decide
theorem test_wf_csrw_readOnly : ¬ (Instr.csrw 0x0C 0).WellFormed ∧ (Instr.csrw 0x0B 0).WellFormed := by decide
theorem test_wf_csrw_shift : ¬ (Instr.csrw 0x01 32).WellFormed ∧ (Instr.csrw 0x01 31).WellFormed := by decide
theorem test_wf_csrw_ctrl : ¬ (Instr.csrw 0x03 2).WellFormed ∧ (Instr.csrw 0x03 1).WellFormed := by decide
theorem test_wf_cntr_a7 : ¬ (Instr.cntr 0x80).WellFormed ∧ (Instr.cntr 0x7F).WellFormed := by decide

/-! ## Decoding: words written out bit by bit from 30_encoding.md R115 (RSVD 15 bits, T, A, OP) -/

theorem test_decode_nop : decode ⟨0b000000000000000_0_00000000_00000000, 7⟩ = .instr .nop := by decide
theorem test_decode_csrr : decode ⟨0b000000000000000_0_00001111_00000001, 7⟩ = .instr (.csrr 0x0F) := by decide
theorem test_decode_csrw : decode ⟨0b000000000000000_0_00000001_00000010, 4⟩ = .instr (.csrw 0x01 4) := by decide
theorem test_decode_seed : decode ⟨0b000000000000000_0_00000000_00000011, 7⟩ = .instr .seed := by decide
theorem test_decode_next : decode ⟨0b000000000000000_0_00000000_00000100, 7⟩ = .instr (.next false) := by decide
theorem test_decode_nextT : decode ⟨0b000000000000000_1_00000000_00000100, 7⟩ = .instr (.next true) := by decide
theorem test_decode_jump : decode ⟨0b000000000000000_0_00000000_00000101, 7⟩ = .instr .jump := by decide
theorem test_decode_ljump : decode ⟨0b000000000000000_0_00000000_00000110, 7⟩ = .instr .ljump := by decide
theorem test_decode_trki : decode ⟨0b000000000000000_0_00000000_00000111, 9⟩ = .instr (.trki 9) := by decide
theorem test_decode_trkf : decode ⟨0b000000000000000_0_00000000_00001000, 9⟩ = .instr (.trkf 9) := by decide
theorem test_decode_cntr : decode ⟨0b000000000000000_0_01011111_00001001, 7⟩ = .instr (.cntr 0x5F) := by decide
theorem test_decode_stclr : decode ⟨0b000000000000000_0_00000000_00001010, 7⟩ = .instr .stclr := by decide

/-- The illegal words of 95_test_vectors.md V41, each with the check it fails. -/
theorem test_decode_illegal :
    decode ⟨0x00000100, 0⟩ = .illegal .addressField ∧ decode ⟨0x00010000, 0⟩ = .illegal .trackFlag ∧
    decode ⟨0x0000000b, 0⟩ = .illegal .unknownOpcode ∧ decode ⟨0x000000ff, 0⟩ = .illegal .unknownOpcode ∧
    decode ⟨0x00020001, 0⟩ = .illegal .reservedBits ∧ decode ⟨0x80000004, 0⟩ = .illegal .reservedBits ∧
    decode ⟨0x00010001, 0⟩ = .illegal .trackFlag ∧ decode ⟨0x00000107, 0⟩ = .illegal .addressField := by decide

/-- The host's numbering: CMD in bits 31..0, D above (V41: 0x0000ff09 decodes). -/
theorem test_decodeTableWord : decodeTableWord 32 0x0000ff09 = some (.cntr 0xFF) ∧ decodeTableWord 32 0x0b = none := by
  decide

/-! ## One or two tests for each command -/

/-- R270. -/
theorem test_nop : after State.reset 0 7 = some { State.reset with response := some ⟨0, 0⟩ } := by decide +kernel

/-- V40: CSRR FMAX after reset. -/
theorem test_csrr_fmax : reply State.reset 0x00001301 0 = some ⟨0, 0x00000000ff800000⟩ := by decide

/-- P4 command 17: STATUS with ERR = 5 and SEEDED = 1 reads 0x51. -/
theorem test_csrr_status : reply { State.reset with err := 5, seeded := true } 0x00000401 0 = some ⟨0, 0x51⟩ := by decide

/-- V22: CSRW SHIFT, 31 is taken and CSRW SHIFT, 32 is BAD_VALUE. -/
theorem test_csrw_shift : (after State.reset 0x00000102 31).map State.shift = some 31 ∧
    reply State.reset 0x00000102 32 = some ⟨4, 0⟩ := by decide

/-- V42: at 0x14 BAD_ADDR whatever D is; at ACTIVE READ_ONLY. -/
theorem test_csrw_priority : reply State.reset 0x00001402 99 = some ⟨2, 0⟩ ∧
    reply State.reset 0x00000202 8 = some ⟨3, 0⟩ := by decide

/-- V6: SEED right after reset loads [1, 0, 0, 0]. -/
theorem test_seed : (after State.reset 3 0).map (fun t => (t.gen, t.seeded)) = some (⟨1, 0, 0, 0⟩, true) := by decide

/-- V6: a zero buffer is ZERO_SEED, and ERR = 6. -/
theorem test_seed_zero : (after { State.reset with seedbuf := ⟨0, 0, 0, 0⟩ } 3 0).map (fun t => (t.response, t.err)) =
    some (some ⟨6, 0⟩, 6) := by decide

/-- V2: the output wraps to 0, and the state after. -/
theorem test_next_wraps : (after (seededWith 0xffffffff 0 0 1) 4 0).map (fun t => (t.response, t.gen)) =
    some (some ⟨0, 0⟩, ⟨0xfffffffe, 0xffffffff, 0xffffffff, 0x00000800⟩) := by decide

/-- P3 command 9: NEXT.T with MASK 0xFF, SHIFT 4 and TSRC 1 counts the masked word 0xa0. -/
theorem test_nextT_masked :
    (after { seededWith 0x00400200 0x00000a00 0x00040a01 0x00500802 with mask := 0xFF, shift := 4, tsrc := true }
      0x00010004 0).map (fun t => (t.response, t.int.set[7], t.int.set[1], t.int.max)) =
    some (some ⟨0, 0x000000a000900a02⟩, 1, 0, 0xa0) := by decide +kernel

/-- V10. -/
theorem test_jump : (after (seededWith 1 0 0 0) 5 0).map State.gen =
    some ⟨0x62acb8dd, 0x36f5bbee, 0x3fd024d3, 0x374a8a9d⟩ := by decide +kernel

/-- V11. -/
theorem test_ljump : (after (seededWith 1 0 0 0) 6 0).map State.gen =
    some ⟨0xd5997bdf, 0xb01b22fe, 0x0917034c, 0xffe7aea2⟩ := by decide +kernel

/-- V33: SETI[3] wraps and CLRI[3] stays. -/
theorem test_trki_wraps :
    (after { State.reset with int := { Tracker.emptyInt with set := Vector.replicate 32 0xFFFFFFFFFFFFFFFF } }
      7 8).map (fun t => (t.int.set[3], t.int.clr[3], t.int.set[4], t.int.clr[4])) =
    some (0, 0, 0xFFFFFFFFFFFFFFFF, 1) := by decide +kernel

/-- V32: the first sample sets both IMIN and IMAX. -/
theorem test_trki_first : (after State.reset 7 1).map (fun t => (t.int.min, t.int.max)) = some (1, 1) := by decide

/-- P5 commands 1 and 2: -0.0 sets both, then +0.0 changes neither. -/
theorem test_trkf_zeros :
    (after State.reset 8 0x80000000).map (fun t => (t.flt.min, t.flt.max)) = some (0x80000000, 0x80000000) ∧
    ((after State.reset 8 0x80000000).bind (after · 8 0)).map (fun t => (t.flt.min, t.flt.max)) =
      some (0x80000000, 0x80000000) := by decide

/-- R236: a NaN is counted and leaves FMIN and FMAX. -/
theorem test_trkf_nan : (after State.reset 8 0x7FC00000).map (fun t => (t.flt.set[22], t.flt.min, t.flt.max)) =
    some (1, 0x7F800000, 0xFF800000) := by decide +kernel

/-- V36: A = 0x7f reads CLRF[31]; A = 0x80 is BAD_ADDR. -/
theorem test_cntr : reply (State.reset.trackFlt 1) 0x00007f09 0 = some ⟨0, 1⟩ ∧
    reply State.reset 0x00008009 0 = some ⟨2, 0⟩ := by decide +kernel

/-- V37: STCLR leaves the generator and clears the tracker. -/
theorem test_stclr : after ((seededWith 1 2 3 4).trackInt 5) 0x0a 0 =
    some { seededWith 1 2 3 4 with response := some ⟨0, 0⟩ } := by decide +kernel

/-! ## Shared operations -/

/-- V34. -/
theorem test_fltLt :
    fltLt 0x00000000 0x80000000 = false ∧ fltLt 0x80000000 0x00000000 = false ∧ fltLt 0xbf800000 0x3f800000 = true ∧
    fltLt 0x3f800000 0xbf800000 = false ∧ fltLt 0x7fc00000 0x3f800000 = false ∧ fltLt 0x3f800000 0x7fc00000 = false ∧
    fltLt 0xff800001 0x00000000 = false ∧ fltLt 0xff800000 0xff7fffff = true ∧ fltLt 0x00000001 0x00000002 = true ∧
    fltLt 0x80000002 0x80000001 = true ∧ fltLt 0x80000000 0x00000001 = true ∧ fltLt 0x80000001 0x00000000 = true ∧
    fltLt 0x7f800000 0x7f800000 = false ∧ fltLt 0x7f7fffff 0x7f800000 = true := by decide

/-- V21: fmt and ACTIVE with holes in the mask, and mask 0 ignoring the shift. -/
theorem test_fmt : fmt 0xf0f0f0f0 8 0xdeadbeef = 0x00d0a0b0 ∧ activeCount 0xf0f0f0f0 8 = 12 ∧
    fmt 0 7 0xdeadbeef = 0xdeadbeef ∧ activeCount 0 7 = 0 := by decide

/-- V42: ERR keeps the first code, 5, when ZERO_SEED comes after it. -/
theorem test_err_sticky :
    (after { State.reset with err := 5, seedbuf := ⟨0, 0, 0, 0⟩ } 3 0).map State.err = some 5 := by decide

/-- R84: the bytes of a word, the least significant first. -/
theorem test_wordBytes : wordBytes 0x12345678 = [0x78, 0x56, 0x34, 0x12] := by decide

/-- R119: 1.0 and -2.0 are the patterns of P5; a comment is dropped. -/
theorem test_assemble : assembleText "TRKF -2.0 ; P5" = some [.trkf 0xC0000000] ∧
    assembleText "CNTR CLRI[7]" = some [.cntr 0x27] ∧ assembleText "CSRR 256" = none := by decide +kernel

/-- R345 step 2 and R301: a harness with one seed word, and one with five, which the host refuses. -/
theorem test_harness : seedCommands [5] = [.csrw 0x08 5, .seed] ∧
    harness ⟨[1, 2, 3, 4, 5], 0, 0, 0, 0, 0, 1, false, []⟩ = none := by decide

/-- R345 step 5 and R161: before a TRKF either NEXT or NEXT.T can stand. -/
theorem test_emission : emissionCommands ⟨[], 0, 0, 0, 0, 0, 2, false, [7, 8]⟩ =
      [.next false, .trkf 7, .next false, .trkf 8] ∧
    emissionCommands ⟨[], 0, 0, 0, 0, 0, 1, true, [7]⟩ = [.next true, .trkf 7] := by decide

/-- R317: the raw mode of the default seed issues SEED after reset and then loops over NEXT. -/
theorem test_rawMode : (rawMode ⟨[], 0, 0, 0, 0, 0, 0, false, []⟩).map (fun h => (h.1.take 2, h.2)) =
    some ([.reset, .issue ⟨3, 0⟩], [.issue ⟨4, 0⟩]) := by decide

/-- The latency of a command is a positive number of cycles (R352). -/
theorem test_latency_pos (op : BitVec 8) : 0 < Config.latency op := Nat.succ_pos _

/-! ## Witnesses: for each statement with hypotheses or cases, data that meet them -/

theorem witness_DecodeAndEncodeAgree : decode ⟨0x00007f09, 3⟩ = .instr (.cntr 0x7F) ∧
    decode ⟨0x00000102, 3⟩ = .instr (.csrw 1 3) ∧ (Instr.csrw 1 3).operand = some 3 := by decide

theorem witness_CommandWordsAreTheTableRows :
    (∃ r ∈ opTable, (0x00010004 : Word) &&& r.mask = r.pattern ∧ decode ⟨0x00010004, 0⟩ = .instr (.next true)) ∧
    ¬ ∃ r ∈ opTable, (0x00010005 : Word) &&& r.mask = r.pattern := by decide

/-- Each of the four ways to be illegal at its boundary, and the legal words beside them. -/
theorem witness_IllegalWordsRaiseIllegal :
    (illegalWord 0x20000 ∧ illegalWord 0x0B ∧ illegalWord 0x10000 ∧ illegalWord 0x100) ∧
    (¬ illegalWord 0x10004 ∧ ¬ illegalWord 0x0A ∧ ¬ illegalWord 0xFF09 ∧ ¬ illegalWord 0xFF01 ∧ ¬ illegalWord 0xFF02) ∧
    (withEvent State.reset (.issue ⟨0x0B, 0⟩)).host = .issue ⟨0x0B, 0⟩ :: [] := by
  simp [illegalWord, withEvent]

theorem witness_OtherCommandsIgnoreD : (0x0000FF09 : Word).toNat % 256 ≠ 2 ∧ (0x0000FF09 : Word).toNat % 256 ≠ 7 ∧
    (0x0000FF09 : Word).toNat % 256 ≠ 8 := by decide

theorem witness_StepRunsTheDecodedCommand :
    (withEvent State.reset (.issue ⟨7, 1⟩)).host = .issue ⟨7, 1⟩ :: [] ∧ decode ⟨7, 1⟩ = .instr (.trki 1) := by decide

theorem witness_StepWithoutCommandHoldsState : State.reset.host = [] ∧ State.reset.loop = [] ∧
    ({ State.reset with loop := [.issue ⟨4, 0⟩] } : State).host = [] := by decide

theorem witness_ResetGivesEveryElementItsResetValue :
    (withEvent (seededWith 1 2 3 4) .reset).host = .reset :: [] ∧
    (withEvent (seededWith 1 2 3 4) (.resetDuring ⟨5, 0⟩)).host = .resetDuring ⟨5, 0⟩ :: [] := by decide

theorem witness_OverlappingHostIsRefused :
    (withEvent State.reset (.overlap ⟨0, 0⟩)).host = .overlap ⟨0, 0⟩ :: [] := by decide

theorem witness_WaitingHostIsAlwaysServed : hostWaits (withEvent State.reset (.issue ⟨0x0B, 0⟩)) ∧
    hostWaits State.reset ∧ hostWaits { State.reset with loop := [.issue ⟨4, 0⟩] } := by
  simp [hostWaits, withEvent, State.reset]

/-- The words of one opcode at the edges of its legal ones: legal, T set, a reserved bit set, A set. -/
theorem witness_opcodeDecodes : ∀ w ∈ [(0x00000004, some (Instr.next false)), (0x00010004, some (.next true)),
    (0x00020004, none), (0x80000004, none), (0x00000104, none), (0x0000FF01, some (.csrr 0xFF)), (0x00010001, none),
    (0x00010000, none), (0x00008009, some (.cntr 0x80))], decodeTableWord 32 w.1 = w.2 := by decide

/-- The unmapped addresses at their four boundaries. -/
theorem witness_CsrrReadsTheNamedRegister : ∀ a ∈ [0x05#8, 0x07#8, 0x14#8, 0xFF#8],
    (5 ≤ a.toNat ∧ a.toNat ≤ 7) ∨ 0x14 ≤ a.toNat := by decide

theorem witness_CsrwWritesOnlyTheNamedRegister :
    ((31 : Word).toNat ≤ 31 ∧ ¬ (32 : Word).toNat ≤ 31) ∧ ((2 : Word) ≠ 0 ∧ (2 : Word) ≠ 1) ∧
    (∀ a ∈ [0x02#8, 0x04#8, 0x0C#8, 0x13#8], a.toNat ∈ [0x02, 0x04, 0x0C, 0x0D, 0x0E, 0x0F, 0x10, 0x11, 0x12, 0x13]) ∧
    ∀ a ∈ [0x05#8, 0x07#8, 0x14#8, 0xFF#8], (5 ≤ a.toNat ∧ a.toNat ≤ 7) ∨ 0x14 ≤ a.toNat := by decide

theorem witness_SeedLoadsTheBufferOrRaisesZeroSeed : State.reset.seedbuf ≠ ⟨0, 0, 0, 0⟩ ∧
    ({ State.reset with seedbuf := ⟨0, 0, 0, 0⟩ } : State).seedbuf = ⟨0, 0, 0, 0⟩ := by decide

theorem witness_NextRespondsAndAdvances : State.reset.seeded = false ∧ (seededWith 1 0 0 0).seeded = true := by decide

theorem witness_OnlyGeneratorCommandsNeedASeed : State.reset.seeded = false ∧ (Instr.csrw 0x01 31).WellFormed ∧
    (∀ t, Instr.csrw 0x01 31 ≠ .next t) ∧ Instr.csrw 0x01 31 ≠ .jump ∧ Instr.csrw 0x01 31 ≠ .ljump := by decide

theorem witness_JumpReplacesOnlyTheState : (seededWith 1 0 0 0).seeded = true := by decide

theorem witness_JumpIsExactlyThatManySteps : (seededWith 0 0 0 1).seeded = true ∧ State.reset.seeded = false := by
  decide

theorem witness_PeriodOfTheGenerator : (⟨1, 0, 0, 0⟩ : Quad) ≠ ⟨0, 0, 0, 0⟩ ∧ (0 < 1 ∧ 1 < 2 ^ 128 - 1) ∧
    (2 ^ 128 - 2 < 2 ^ 128 - 1) := by decide

theorem witness_MaskStageFormulas : (0 : Word) = 0 ∧ (1 : Word) ≠ 0 ∧ 31 < 32 := by decide

theorem witness_MaskedValueStaysInRange : (0xFF : Word) ≠ 0 ∧ (0 : Word) = 0 := by decide

theorem witness_TrkfCountsAFloatSample : fltIsNaN 0x7F800001 = true ∧ fltIsNaN 0x7F800000 = false := by decide

theorem witness_FloatCompareIsTheOrderOfValues : fltIsNaN 0x7F800001 = true ∧ fltIsNaN 0x7F800000 = false ∧
    fltIsNaN 0xFF800000 = false := by decide

theorem witness_CntrReadsTheNamedCounter : 128 ≤ (0x80 : BitVec 8).toNat ∧ ¬ 128 ≤ (0x7F : BitVec 8).toNat := by decide

theorem witness_IntegerStatisticsAreThoseOfTheSamples : (HostEvent.reset = .reset ∧ ([] : List Word) = []) ∧
    (HostEvent.issue ⟨0x0A, 0⟩ = .issue (encode .stclr) ∧ [5#32, 3#32] ≠ []) := by decide

theorem witness_TrackingIsOrderIndependent : [1#32, 0x80000000#32].Perm [0x80000000#32, 1#32] ∧
    ¬ (0x00000000#32 ∈ [1#32, 0x80000000#32] ∧ 0x80000000#32 ∈ [1#32, 0x80000000#32]) := by decide

theorem witness_FailingCommandChangesOnlyErr : ∃ t r, step (State.reset.present ⟨4, 0⟩) = .next t ∧
    t.response = some r ∧ r.st ≠ 0 := ⟨_, _, rfl, rfl, by decide⟩

theorem witness_ErrKeepsTheFirstError : State.reset.err = 0 ∧ ({ State.reset with err := 5 } : State).err ≠ 0 ∧
    (after State.reset 4 0).isSome = true ∧ (after { State.reset with err := 5 } 3 0).isSome = true := by decide

theorem witness_EachCommandHasItsOwnErrors : reply State.reset 0x0B 0 = some ⟨1, 0⟩ ∧
    (after State.reset 0 0).isSome = true := by decide

theorem witness_WellFormedCommandsSucceed : (seededWith 1 0 0 0).seeded = true ∧
    (seededWith 1 0 0 0).seedbuf ≠ ⟨0, 0, 0, 0⟩ := by decide

/-- A command that changes each element: the clauses of the statement are about changes that happen. -/
theorem witness_OnlyTheListedCommandsWriteAnElement :
    (after (seededWith 1 0 0 0) 4 0).map State.gen ≠ some (seededWith 1 0 0 0).gen ∧
    (after State.reset 3 0).map State.seeded ≠ some State.reset.seeded ∧
    (after State.reset 0x0802 9).map State.seedbuf ≠ some State.reset.seedbuf ∧
    (after State.reset 0x0002 9).map State.mask ≠ some State.reset.mask ∧
    (after State.reset 0x0102 9).map State.shift ≠ some State.reset.shift ∧
    (after State.reset 0x0302 1).map State.tsrc ≠ some State.reset.tsrc ∧
    (after State.reset 7 1).map (·.int.min) ≠ some State.reset.int.min ∧
    (after State.reset 8 1).map (·.flt.min) ≠ some State.reset.flt.min ∧
    (after State.reset 4 0).map State.err ≠ some State.reset.err := by decide

theorem witness_NoCommandUnseedsTheGenerator : (after State.reset 3 0).map State.seeded = some true ∧
    State.reset.seeded = false ∧ (after (seededWith 1 0 0 0) 0 0).map State.seeded = some true ∧
    (withEvent (seededWith 1 0 0 0) .reset).host = .reset :: [] ∧
    (withEvent (seededWith 1 0 0 0) (.resetDuring ⟨5, 0⟩)).host = .resetDuring ⟨5, 0⟩ :: [] := by decide

theorem witness_StclrClearsTheTracker : (after (seededWith 1 2 3 4) 0x0A 0).isSome = true := by decide

theorem witness_RepeatingAnIdempotentCommand : (∃ t, exec .nop State.reset = .next t) ∧
    ∃ t r, exec .jump State.reset = .next t ∧ t.response = some r ∧ r.st ≠ 0 :=
  ⟨⟨_, rfl⟩, _, _, rfl, rfl, by decide⟩

/-- Two blocks that differ in the mask stage, the tracker and ERR. -/
theorem witness_GeneratorIsIsolatedFromTheTracker :
    sameGenerator (seededWith 1 0 0 0) { (seededWith 1 0 0 0).trackInt 5 with mask := 3, err := 2 } ∧
    (seededWith 1 0 0 0).int.min ≠ ((seededWith 1 0 0 0).trackInt 5).int.min := by
  refine ⟨⟨rfl, rfl, rfl, rfl, rfl⟩, by decide⟩

/-- A state with the invariant that takes a step: reset with SEED presented. -/
theorem witness_EveryStepKeepsTheInvariant : Inv (State.reset.present ⟨3, 0⟩) ∧
    ∃ t, step (State.reset.present ⟨3, 0⟩) = .next t :=
  ⟨⟨by decide, by decide +kernel, by decide +kernel, by decide, by decide, by decide, by decide⟩, _, rfl⟩

theorem witness_SeedvSeedsTheGenerator : (⟨0, 0, 0, 0⟩ : Quad) = ⟨0, 0, 0, 0⟩ ∧ (⟨1, 0, 0, 0⟩ : Quad) ≠ ⟨0, 0, 0, 0⟩ := by
  decide

/-- A seeded block under a host that loops over NEXT. -/
theorem witness_EndlessNextLoopIsAnInfiniteRun :
    let s : State := { seededWith 1 0 0 0 with loop := [.issue (encode (.next false))] }
    s.seeded = true ∧ s.host = [] ∧ s.loop = [.issue (encode (.next false))] := by decide

end Sys2Proof.Tests
end

/-!
PROOFS. No state other than zero is mapped to zero by the step map, JUMP or LJUMP: the step map is injective, the jumps
are linear and commute with it, and one more jump undoes JUMP and LJUMP together (40_generator.md R151; 41_jump.md R181,
R184, R193).
-/

namespace Sys2Proof.Machine

/-! ## Linearity -/

theorem rotl32_xor (x y : Word) (k : Nat) : rotl32 (x ^^^ y) k = rotl32 x k ^^^ rotl32 y k := by
  apply BitVec.eq_of_getLsbD_eq
  intro i hi
  by_cases hk : i < k
  · simp [rotl32, hi, hk]
  · have hge : 32 ≤ 32 - k + i := by omega
    simp [rotl32, hi, hk, BitVec.getLsbD_of_ge _ _ hge]

/-- The step map word by word (40_generator.md R151). -/
theorem stepGen_mk (a b c d : Word) :
    stepGen ⟨a, b, c, d⟩ = ⟨a ^^^ (d ^^^ b), b ^^^ (c ^^^ a), c ^^^ a ^^^ b <<< 9, rotl32 (d ^^^ b) 11⟩ := rfl

theorem quadXor_mk (a b c d a' b' c' d' : Word) :
    quadXor ⟨a, b, c, d⟩ ⟨a', b', c', d'⟩ = ⟨a ^^^ a', b ^^^ b', c ^^^ c', d ^^^ d'⟩ := rfl

theorem stepGen_xor (u w : Quad) : stepGen (quadXor u w) = quadXor (stepGen u) (stepGen w) := by
  obtain ⟨a, b, c, d⟩ := u
  obtain ⟨a', b', c', d'⟩ := w
  simp only [quadXor_mk, stepGen_mk, Quad.mk.injEq, rotl32_xor, BitVec.shiftLeft_xor_distrib]
  refine ⟨?_, ?_, ?_, ?_⟩ <;> ac_rfl

theorem jumpLoop_xor (j : Quad) (n k : Nat) (p q u w : Quad) :
    jumpLoop j n k (quadXor p q) (quadXor u w) = quadXor (jumpLoop j n k p u) (jumpLoop j n k q w) := by
  induction n generalizing k p q u w with
  | zero => rfl
  | succ n ih =>
    simp only [jumpLoop_succ, stepGen_xor, ← ih]
    cases quadBit j k
    · rfl
    · simp [quadXor_assoc, quadXor_left_comm]

/-- A jump is linear (41_jump.md R190 (a)). -/
theorem jumpPoly_xor (j u w : Quad) : jumpPoly j (quadXor u w) = quadXor (jumpPoly j u) (jumpPoly j w) := by
  simpa [jumpPoly_eq] using jumpLoop_xor j 128 0 quadZero quadZero u w

theorem jumpLoop_commute {f : Quad → Quad} (hxor : ∀ u w, f (quadXor u w) = quadXor (f u) (f w))
    (hstep : ∀ v, f (stepGen v) = stepGen (f v)) (j : Quad) (n k : Nat) (p v : Quad) :
    jumpLoop j n k (f p) (f v) = f (jumpLoop j n k p v) := by
  induction n generalizing k p v with
  | zero => rfl
  | succ n ih =>
    simp only [jumpLoop_succ, ← ih, ← hstep]
    cases quadBit j k
    · rfl
    · simp [hxor]

/-- A jump commutes with every linear map that commutes with the step map. -/
theorem jumpPoly_commute {f : Quad → Quad} (h0 : f quadZero = quadZero)
    (hxor : ∀ u w, f (quadXor u w) = quadXor (f u) (f w)) (hstep : ∀ v, f (stepGen v) = stepGen (f v))
    (j v : Quad) : jumpPoly j (f v) = f (jumpPoly j v) := by
  simpa [jumpPoly_eq, h0] using jumpLoop_commute hxor hstep j 128 0 quadZero v

/-- A jump commutes with the step map (41_jump.md R190 (c)). -/
theorem jumpPoly_stepGen (j v : Quad) : jumpPoly j (stepGen v) = stepGen (jumpPoly j v) :=
  jumpPoly_commute stepGen_zero stepGen_xor (fun _ => rfl) j v

/-- Two jumps commute (41_jump.md R190 (c)). -/
theorem jumpPoly_comm (j l v : Quad) : jumpPoly j (jumpPoly l v) = jumpPoly l (jumpPoly j v) :=
  jumpPoly_commute (jumpPoly_zero l) (jumpPoly_xor l) (jumpPoly_stepGen l) j v

/-! ## The step map is injective -/

theorem quad_eq_of_xor_eq_zero {u w : Quad} (h : quadXor u w = quadZero) : u = w := by
  rw [← quadXor_zero u, ← quadXor_self w, ← quadXor_assoc, h, quadXor_zero_left]

theorem rotl32_eq_zero {x : Word} (h : rotl32 x 11 = 0) : x = 0 := by
  obtain ⟨hl, hr⟩ := BitVec.or_eq_zero_iff.1 h
  have hl := congrArg BitVec.toNat hl
  have hr := congrArg BitVec.toNat hr
  apply BitVec.eq_of_toNat_eq
  simp only [BitVec.toNat_shiftLeft, BitVec.toNat_ushiftRight, Nat.shiftLeft_eq, Nat.shiftRight_eq_div_pow,
    BitVec.toNat_zero] at hl hr
  simp
  omega

theorem eq_zero_of_shiftLeft_eq_self {x : Word} (h : x <<< 9 = x) : x = 0 := by
  have h4 : x <<< (9 + 9 + 9 + 9) = x := by simp only [BitVec.shiftLeft_add, h]
  rw [← h4]
  exact BitVec.shiftLeft_eq_zero (by decide)

theorem eq_zero_of_stepGen_eq_zero {v : Quad} (h : stepGen v = quadZero) : v = quadZero := by
  obtain ⟨a, b, c, d⟩ := v
  rw [stepGen_mk, quadZero, Quad.mk.injEq] at h
  obtain ⟨ha, hb, hc, hd⟩ := h
  have hdb := rotl32_eq_zero hd
  obtain rfl : d = b := BitVec.xor_eq_zero_iff.1 hdb
  obtain rfl : a = 0 := by simpa using ha
  obtain rfl : d = c := by simpa using BitVec.xor_eq_zero_iff.1 hb
  obtain rfl : d = 0 := eq_zero_of_shiftLeft_eq_self (BitVec.xor_eq_zero_iff.1 (by simpa using hc)).symm
  rfl

theorem stepGen_injective : Function.Injective stepGen := fun u w h =>
  quad_eq_of_xor_eq_zero (eq_zero_of_stepGen_eq_zero (by rw [stepGen_xor, h, quadXor_self]))

theorem stepGen_eq_zero_iff (v : Quad) : stepGen v = quadZero ↔ v = quadZero :=
  ⟨eq_zero_of_stepGen_eq_zero, fun h => by rw [h, stepGen_zero]⟩

/-! ## Induction over the states -/

/-- The bits of a word up to and with bit `n` are those below it and bit `n` itself. -/
theorem lowBits_succ (x : Word) (n : Nat) :
    (x.setWidth (n + 1)).setWidth 32 =
      (x.setWidth n).setWidth 32 ^^^ (if x.getLsbD n then BitVec.twoPow 32 n else 0) := by
  apply BitVec.eq_of_getLsbD_eq
  intro i hi
  split <;> simp <;> grind

/-- A property of words that exclusive-or keeps holds of every word when it holds of zero and of every single bit. -/
theorem word_induction_xor {p : Word → Prop} (zero : p 0) (xor : ∀ x y, p x → p y → p (x ^^^ y))
    (bit : ∀ k < 32, p (BitVec.twoPow 32 k)) (x : Word) : p x := by
  have low : ∀ n ≤ 32, p ((x.setWidth n).setWidth 32) := by
    intro n hn
    induction n with
    | zero => rwa [BitVec.of_length_zero (x := x.setWidth 0)]
    | succ n ih =>
      rw [lowBits_succ]
      refine xor _ _ (ih (by omega)) ?_
      split
      · exact bit n hn
      · exact zero
  simpa using low 32 le_rfl

/-- A property that exclusive-or keeps, and that a state has exactly when its successor does, holds of every state when
it holds of the states whose only non-zero word is S0. -/
theorem quad_induction_stepGen {p : Quad → Prop} (xor : ∀ u w, p u → p w → p (quadXor u w))
    (step : ∀ v, p (stepGen v) ↔ p v) (first : ∀ x, p ⟨x, 0, 0, 0⟩) (v : Quad) : p v := by
  have third (x : Word) : p ⟨0, 0, x, 0⟩ := by
    have h : p ⟨x, 0, x, 0⟩ := (step _).1 (by simpa [stepGen_mk, rotl32] using first x)
    simpa [quadXor_mk] using xor _ _ h (first x)
  have second (x : Word) : p ⟨0, x, 0, 0⟩ := by
    have h : p ⟨0, x, x, 0⟩ := by simpa [stepGen_mk, rotl32] using (step _).2 (third x)
    simpa [quadXor_mk] using xor _ _ h (third x)
  have rotated (x : Word) : p ⟨0, 0, 0, rotl32 x 11⟩ := by
    have h : p ⟨x, x, x <<< 9, rotl32 x 11⟩ := by simpa [stepGen_mk] using (step _).2 (second x)
    simpa [quadXor_mk] using xor _ _ h (xor _ _ (first x) (xor _ _ (second x) (third (x <<< 9))))
  have fourth (x : Word) : p ⟨0, 0, 0, x⟩ :=
    (step _).1 (by simpa [stepGen_mk, quadXor_mk] using xor _ _ (first x) (rotated x))
  obtain ⟨a, b, c, d⟩ := v
  simpa [quadXor_mk] using xor _ _ (xor _ _ (first a) (second b)) (xor _ _ (third c) (fourth d))

/-! ## The jumps -/

/-- The constant of the jump that undoes JUMP and LJUMP together: the inverse of the product of their polynomials modulo
the characteristic polynomial of the step map. -/
def undoJumps : Quad := ⟨0xbd6f7f0f, 0x70ddd9ad, 0x74229d84, 0x7300e61a⟩

theorem undoJumps_bit : ∀ k < 32,
    jumpPoly undoJumps (jumpPoly jumpConst (jumpPoly ljumpConst ⟨BitVec.twoPow 32 k, 0, 0, 0⟩)) =
      ⟨BitVec.twoPow 32 k, 0, 0, 0⟩ := by decide +kernel

theorem undoJumps_firstWord (x : Word) :
    jumpPoly undoJumps (jumpPoly jumpConst (jumpPoly ljumpConst ⟨x, 0, 0, 0⟩)) = ⟨x, 0, 0, 0⟩ := by
  induction x using word_induction_xor with
  | zero =>
    change jumpPoly _ (jumpPoly _ (jumpPoly _ quadZero)) = quadZero
    simp only [jumpPoly_zero]
  | xor x y hx hy => simpa [← jumpPoly_xor, quadXor_mk] using congrArg₂ quadXor hx hy
  | bit k hk => exact undoJumps_bit k hk

theorem undoJumps_jumps (v : Quad) : jumpPoly undoJumps (jumpPoly jumpConst (jumpPoly ljumpConst v)) = v := by
  induction v using quad_induction_stepGen with
  | xor u w hu hw => simp only [jumpPoly_xor, hu, hw]
  | step v => simp only [jumpPoly_stepGen, stepGen_injective.eq_iff]
  | first x => exact undoJumps_firstWord x

theorem jumpPoly_ljumpConst_eq_zero_iff (v : Quad) : jumpPoly ljumpConst v = quadZero ↔ v = quadZero := by
  refine ⟨fun h => ?_, fun h => by rw [h, jumpPoly_zero]⟩
  rw [← undoJumps_jumps v, h, jumpPoly_zero, jumpPoly_zero]

theorem jumpPoly_jumpConst_eq_zero_iff (v : Quad) : jumpPoly jumpConst v = quadZero ↔ v = quadZero := by
  refine ⟨fun h => ?_, fun h => by rw [h, jumpPoly_zero]⟩
  rw [← undoJumps_jumps v, jumpPoly_comm jumpConst ljumpConst, h, jumpPoly_zero, jumpPoly_zero]

end Sys2Proof.Machine

/-!
PROOFS. The invariant of the block: reset has it, every operation on the state keeps it, and so every step does
(10_state.md R32, R41, R52; 43_tracker.md R234, R235; 60_exceptions.md R300).
-/

namespace Sys2Proof.Machine

/-! ## The tracker's domains -/

theorem balanced_countSample {t : Tracker} (h : balanced t) (v : Word) : balanced (countSample t v) := by
  intro k
  change (countSample t v).set[k.val] + (countSample t v).clr[k.val] =
    (countSample t v).set[0] + (countSample t v).clr[0]
  rw [countSample_pair, countSample_pair]
  exact congrArg (· + 1) (h k)

theorem balanced_emptyInt : balanced Tracker.emptyInt := by
  intro k
  simp [Tracker.emptyInt]

theorem balanced_emptyFlt : balanced Tracker.emptyFlt := by
  intro k
  simp [Tracker.emptyFlt]

/-- A sample that replaces min and max makes them equal; one that replaces a single one compares with the other. -/
theorem orderedInt_minmaxInt {t : Tracker} (h : orderedInt t) (v : Word) : orderedInt (minmaxInt t v) := by
  cases hmin : v.ult t.min <;> cases hmax : t.max.ult v
  · simpa [orderedInt, minmaxInt, hmin, hmax] using h
  · right
    simp [minmaxInt, hmin, hmax, BitVec.ule_eq_not_ult]
  · right
    simp [minmaxInt, hmin, hmax, BitVec.ule_eq_not_ult]
  · right
    simp [minmaxInt, hmin, hmax, BitVec.ule]

theorem fltIsNaN_ite {b : Bool} {x y : Word} (hx : b = true → fltIsNaN x = false) (hy : fltIsNaN y = false) :
    fltIsNaN (if b then x else y) = false := by
  cases b
  · exact hy
  · exact hx rfl

/-- As for the integers; a sample that replaces a register is no NaN, a NaN being unordered (43_tracker.md R235). -/
theorem orderedFlt_minmaxFlt {t : Tracker} (h : orderedFlt t) (v : Word) : orderedFlt (minmaxFlt t v) := by
  obtain ⟨hn, hx, ho⟩ := h
  have nan_of_lt (hlt : fltLt v t.min = true ∨ fltLt t.max v = true) : fltIsNaN v = false := by
    cases hv : fltIsNaN v with
    | false => rfl
    | true => simp [fltLt_nan_left hv, fltLt_nan_right hv] at hlt
  refine ⟨fltIsNaN_ite (fun hlt => nan_of_lt (.inl hlt)) hn, fltIsNaN_ite (fun hlt => nan_of_lt (.inr hlt)) hx, ?_⟩
  cases hmin : fltLt v t.min <;> cases hmax : fltLt t.max v
  · simpa [minmaxFlt, hmin, hmax] using ho
  · right
    simp [minmaxFlt, hmin, hmax]
  · right
    simp [minmaxFlt, hmin, hmax]
  · right
    simp [minmaxFlt, hmin, hmax, fltLt_irrefl]

/-! ## Every operation keeps the invariant -/

theorem inv_reset : Inv State.reset where
  seed := rfl
  intBalanced := balanced_emptyInt
  fltBalanced := balanced_emptyFlt
  intOrdered := .inl ⟨rfl, rfl⟩
  fltOrdered := ⟨by decide, by decide, .inl ⟨rfl, rfl⟩⟩
  err := by decide
  response := by decide

variable {s : State}

/-- The invariant does not read the host's list and loop. -/
theorem Inv.withHost (h : Inv s) (host loop : List HostEvent) : Inv { s with host := host, loop := loop } :=
  ⟨h.seed, h.intBalanced, h.fltBalanced, h.intOrdered, h.fltOrdered, h.err, h.response⟩

theorem Inv.writeCsr (h : Inv s) (c : Csr) (d : Word) : Inv (s.writeCsr c d) := by
  cases c <;> exact ⟨h.seed, h.intBalanced, h.fltBalanced, h.intOrdered, h.fltOrdered, h.err, h.response⟩

theorem Inv.loadSeed (h : Inv s) (hbuf : allZero s.seedbuf = false) : Inv s.loadSeed :=
  ⟨(allZero_eq_false_iff _).1 hbuf, h.intBalanced, h.fltBalanced, h.intOrdered, h.fltOrdered, h.err, h.response⟩

/-- A map of the state words that takes zero and only zero to zero keeps the invariant (10_state.md R32). -/
theorem Inv.mapGen (h : Inv s) {f : Quad → Quad} (hf : ∀ v, f v = quadZero ↔ v = quadZero) :
    Inv { s with gen := f s.gen } :=
  ⟨by simpa only [seedInv, ne_eq, hf] using h.seed, h.intBalanced, h.fltBalanced, h.intOrdered, h.fltOrdered, h.err,
    h.response⟩

theorem Inv.advance (h : Inv s) : Inv s.advance := h.mapGen stepGen_eq_zero_iff

theorem Inv.trackInt (h : Inv s) (v : Word) : Inv (s.trackInt v) :=
  ⟨h.seed, balanced_countSample h.intBalanced v, h.fltBalanced,
    orderedInt_minmaxInt (t := countSample s.int v) h.intOrdered v, h.fltOrdered, h.err, h.response⟩

theorem Inv.trackFlt (h : Inv s) (v : Word) : Inv (s.trackFlt v) :=
  ⟨h.seed, h.intBalanced, balanced_countSample h.fltBalanced v, h.intOrdered,
    orderedFlt_minmaxFlt (t := countSample s.flt v) h.fltOrdered v, h.err, h.response⟩

theorem Inv.clearTracker (h : Inv s) : Inv s.clearTracker :=
  ⟨h.seed, balanced_emptyInt, balanced_emptyFlt, inv_reset.intOrdered, inv_reset.fltOrdered, h.err, h.response⟩

theorem Inv.respond (h : Inv s) (q : DWord) : Inv (s.respond q) := by
  refine ⟨h.seed, h.intBalanced, h.fltBalanced, h.intOrdered, h.fltOrdered, h.err, ?_⟩
  rintro r ⟨⟩
  exact ⟨Nat.zero_le 6, fun hr => absurd rfl hr⟩

theorem Inv.raise (h : Inv s) (e : ErrorCode) : Inv (s.raise e) := by
  refine ⟨h.seed, h.intBalanced, h.fltBalanced, h.intOrdered, h.fltOrdered, ?_, ?_⟩
  · rw [raise_err, stickyErr]
    split
    · exact errorCode_legal e
    · exact h.err
  · rintro r ⟨⟩
    exact ⟨errorCode_legal e, fun _ => ⟨rfl, stickyErr_ne_ok s.err e⟩⟩

/-- The effect of every command that succeeds keeps the invariant. -/
theorem Inv.effect {s' : State} {q : DWord} {i : Instr} (h : Inv s) (he : Effect s s' q i) : Inv s' := by
  cases i with
  | nop => obtain ⟨rfl, -⟩ := he; exact h
  | csrr a => obtain ⟨c, -, rfl, -⟩ := he; exact h
  | csrw a d => obtain ⟨c, -, -, -, rfl, -⟩ := he; exact h.writeCsr c d
  | seed => obtain ⟨hbuf, rfl, -⟩ := he; exact h.loadSeed hbuf
  | next t =>
    obtain ⟨-, rfl, -⟩ := he
    cases t with
    | false => exact h.advance
    | true => exact h.advance.trackInt _
  | jump => obtain ⟨-, rfl, -⟩ := he; exact h.mapGen jumpPoly_jumpConst_eq_zero_iff
  | ljump => obtain ⟨-, rfl, -⟩ := he; exact h.mapGen jumpPoly_ljumpConst_eq_zero_iff
  | trki d => obtain ⟨rfl, -⟩ := he; exact h.trackInt d
  | trkf d => obtain ⟨rfl, -⟩ := he; exact h.trackFlt d
  | cntr a => obtain ⟨c, -, rfl, -⟩ := he; exact h
  | stclr => obtain ⟨rfl, -⟩ := he; exact h.clearTracker

/-- A step with a command keeps the invariant, whether the command raises an error or takes its effect. -/
theorem Inv.step_issue {t : State} {c : Command} {rest : List HostEvent} (h : Inv s) (hh : s.host = .issue c :: rest)
    (hs : step s = .next t) : Inv t := by
  have h' := h.withHost rest s.loop
  obtain ⟨_, -, rfl⟩ | ⟨_, e, -, -, rfl⟩ | ⟨_, _, q, -, he, rfl⟩ := step_issue_cases hh hs
  · exact h'.raise .illegal
  · exact h'.raise e
  · exact (h'.effect he).respond q

/-- Settles O45: a step holds the block, runs a command or resets, and each keeps the invariant. -/
theorem everyStepKeepsTheInvariant : Obligations.EveryStepKeepsTheInvariant := by
  intro s t h hs
  obtain ⟨-, rfl⟩ | ⟨c, rest, hh⟩ | ⟨rest, -, rfl⟩ := step_cases hs
  · exact h.withHost s.loop s.loop
  · exact h.step_issue hh hs
  · exact inv_reset.withHost rest s.loop

/-- Settles O46, clause by clause. -/
theorem resetHasTheInvariant : Obligations.ResetHasTheInvariant := inv_reset

end Sys2Proof.Machine

/-!
PROOFS. ERR keeps the first error, and each element of the state is changed only by the commands that the spec lists
for it (10_state.md R30, R41, R57).
-/

namespace Sys2Proof.Machine

/-- What a CSRW changes says which register it names (10_state.md R45). -/
theorem writeCsr_changes (s : State) (c : Csr) (d : Word) :
    ((s.writeCsr c d).seedbuf ≠ s.seedbuf → 0x08 ≤ (csrAddress c).toNat ∧ (csrAddress c).toNat ≤ 0x0B) ∧
    ((s.writeCsr c d).mask ≠ s.mask → csrAddress c = 0x00) ∧
    ((s.writeCsr c d).shift ≠ s.shift → csrAddress c = 0x01) ∧
    ((s.writeCsr c d).tsrc ≠ s.tsrc → csrAddress c = 0x03) := by
  cases c <;> simp [State.writeCsr, csrAddress]

/-! ## Which command writes which element -/

/-- The columns of 10_state.md R30 that say which command writes an element, for the elements that an error leaves
unchanged: all but ERR. -/
def WritesOnlyItsElements (i : Instr) (s t : State) : Prop :=
  (t.gen ≠ s.gen → i = .seed ∨ i = .jump ∨ i = .ljump ∨ ∃ f, i = .next f) ∧
  (t.seeded ≠ s.seeded → i = .seed) ∧
  (t.seedbuf ≠ s.seedbuf → ∃ a d, i = .csrw a d ∧ 0x08 ≤ a.toNat ∧ a.toNat ≤ 0x0B) ∧
  (t.mask ≠ s.mask → ∃ d, i = .csrw 0x00 d) ∧
  (t.shift ≠ s.shift → ∃ d, i = .csrw 0x01 d) ∧
  (t.tsrc ≠ s.tsrc → ∃ d, i = .csrw 0x03 d) ∧
  (t.int ≠ s.int → i = .next true ∨ i = .stclr ∨ ∃ d, i = .trki d) ∧
  (t.flt ≠ s.flt → i = .stclr ∨ ∃ d, i = .trkf d)

theorem writesOnlyItsElements_refl (i : Instr) (s : State) : WritesOnlyItsElements i s s := by
  simp [WritesOnlyItsElements]

theorem writesOnlyItsElements_csrw (c : Csr) (d : Word) (s : State) :
    WritesOnlyItsElements (.csrw (csrAddress c) d) s (s.writeCsr c d) := by
  obtain ⟨hbuf, hmask, hshift, htsrc⟩ := writeCsr_changes s c d
  exact ⟨fun h => absurd (writeCsr_gen s c d) h, fun h => absurd (writeCsr_seeded s c d) h,
    fun h => ⟨_, d, rfl, hbuf h⟩, fun h => ⟨d, by rw [hmask h]⟩, fun h => ⟨d, by rw [hshift h]⟩,
    fun h => ⟨d, by rw [htsrc h]⟩, fun h => absurd (writeCsr_int s c d) h, fun h => absurd (writeCsr_flt s c d) h⟩

theorem writesOnlyItsElements_of_effect {s s' : State} {q : DWord} {i : Instr} (h : Effect s s' q i) :
    WritesOnlyItsElements i s s' := by
  cases i with
  | nop => obtain ⟨rfl, -⟩ := h; exact writesOnlyItsElements_refl _ _
  | csrr a => obtain ⟨c, -, rfl, -⟩ := h; exact writesOnlyItsElements_refl _ _
  | csrw a d =>
    obtain ⟨c, hc, -, -, rfl, -⟩ := h
    rw [← csrAddress_of_csrAt a c hc]
    exact writesOnlyItsElements_csrw c d s
  | seed => obtain ⟨-, rfl, -⟩ := h; simp [WritesOnlyItsElements]
  | next t => obtain ⟨-, rfl, -⟩ := h; cases t <;> simp [WritesOnlyItsElements]
  | jump => obtain ⟨-, rfl, -⟩ := h; simp [WritesOnlyItsElements]
  | ljump => obtain ⟨-, rfl, -⟩ := h; simp [WritesOnlyItsElements]
  | trki d => obtain ⟨rfl, -⟩ := h; simp [WritesOnlyItsElements]
  | trkf d => obtain ⟨rfl, -⟩ := h; simp [WritesOnlyItsElements]
  | cntr a => obtain ⟨c, -, rfl, -⟩ := h; exact writesOnlyItsElements_refl _ _
  | stclr => obtain ⟨rfl, -⟩ := h; simp [WritesOnlyItsElements]

/-! ## ERR -/

theorem raise_err_of_ne_zero {s : State} (h : s.err ≠ 0) (e : ErrorCode) : (s.raise e).err = s.err :=
  stickyErr_of_ne_zero h _

theorem raise_err_of_zero {s : State} (h : s.err = 0) (e : ErrorCode) : (s.raise e).err = errorCode e := by
  rw [raise_err, h]
  exact stickyErr_zero _

/-- ERR changes by an error only, and then takes its code (10_state.md R41). -/
theorem raise_err_eq_of_ne {s : State} {e : ErrorCode} (h : (s.raise e).err ≠ s.err) :
    (s.raise e).err = errorCode e :=
  raise_err_of_zero (by_contra fun h0 => h (raise_err_of_ne_zero h0 e)) e

/-- What the end of a command leaves in ERR: a value that is not zero, or the status of its response. -/
def KeepsFirstError (s t : State) : Prop :=
  (s.err ≠ 0 → t.err = s.err) ∧ (s.err = 0 → ∃ r, t.response = some r ∧ t.err = r.st)

theorem keepsFirstError_raise (s : State) (e : ErrorCode) : KeepsFirstError s (s.raise e) :=
  ⟨fun h => raise_err_of_ne_zero h e, fun h => ⟨_, rfl, raise_err_of_zero h e⟩⟩

theorem keepsFirstError_respond {s s' : State} (h : s'.err = s.err) (q : DWord) : KeepsFirstError s (s'.respond q) :=
  ⟨fun _ => h, fun h0 => ⟨_, rfl, h.trans h0⟩⟩

/-! ## The statements -/

/-- Settles O38: an error is recorded by `raise`, and a success leaves ERR as it is. -/
theorem errKeepsTheFirstError : Obligations.ErrKeepsTheFirstError := by
  intro s t c rest hh hs
  obtain ⟨_, -, rfl⟩ | ⟨_, e, -, -, rfl⟩ | ⟨_, _, q, -, he, rfl⟩ := step_issue_cases hh hs
  · exact keepsFirstError_raise { s with host := rest } .illegal
  · exact keepsFirstError_raise { s with host := rest } e
  · obtain ⟨herr, -, -⟩ := effect_err_host he
    exact keepsFirstError_respond (s := { s with host := rest }) herr q

/-- Settles O41: an error changes ERR only, and a success what the command's effect writes. -/
theorem onlyTheListedCommandsWriteAnElement : Obligations.OnlyTheListedCommandsWriteAnElement := by
  intro i s t ht
  obtain ⟨e, -, h⟩ | ⟨s', q, he, h⟩ := exec_cases i s <;> obtain rfl := Host.Outcome.next.inj (h.symm.trans ht)
  · obtain ⟨hgen, hseeded, hbuf, hmask, hshift, htsrc, hint, hflt⟩ := writesOnlyItsElements_refl i s
    exact ⟨hgen, hseeded, hbuf, hmask, hshift, htsrc, hint, hflt,
      fun hne => ⟨_, rfl, errorCode_ne_ok e, raise_err_eq_of_ne hne⟩, rfl, rfl⟩
  · obtain ⟨hgen, hseeded, hbuf, hmask, hshift, htsrc, hint, hflt⟩ := writesOnlyItsElements_of_effect he
    obtain ⟨herr, hhost, hloop⟩ := effect_err_host he
    exact ⟨hgen, hseeded, hbuf, hmask, hshift, htsrc, hint, hflt, fun hne => absurd herr hne, hhost, hloop⟩

/-- Settles O9, element by element. -/
theorem resetStateHoldsTheResetValues : Obligations.ResetStateHoldsTheResetValues := by
  have hzero (k : Fin 32) : CounterFile.zero[k] = 0 := counterFile_zero k k.isLt
  exact ⟨rfl, rfl, rfl, rfl, rfl, rfl, rfl, fun k => ⟨hzero k, hzero k, hzero k, hzero k⟩, rfl, rfl, rfl, rfl⟩

end Sys2Proof.Machine

/-!
PROOFS. The host's side of the transactions: a repeated command that is idempotent, or that failed, changes nothing
further (20_memory.md R88), and a host's bytes are little-endian (R84).
-/

namespace Sys2Proof.Machine

variable {s s' t : State} {e : ErrorCode} {q : DWord} {i : Instr}

/-! ## The outcomes of a command and their conditions -/

/-- What a command can leave: the record of an error it raises, or its effect with the response. -/
theorem exec_next_cases (h : exec i s = .next t) :
    (∃ e, Raises s e i ∧ t = s.raise e) ∨ ∃ s' q, Effect s s' q i ∧ t = s'.respond q := by
  obtain ⟨e, he, h'⟩ | ⟨s', q, he, h'⟩ := exec_cases i s
  · exact .inl ⟨e, he, Host.Outcome.next.inj (h.symm.trans h')⟩
  · exact .inr ⟨s', q, he, Host.Outcome.next.inj (h.symm.trans h')⟩

/-- The converse of the first case of `exec_cases`. -/
theorem exec_of_raises (h : Raises s e i) : exec i s = .next (s.raise e) := by
  cases i with
  | nop | trki d | trkf d | stclr => cases h
  | csrr a => obtain ⟨ha, rfl⟩ := h; simp [exec, execCsrr, ha, fail]
  | csrw a d =>
    obtain ⟨ha, rfl⟩ | ⟨c, ha, ⟨hr, rfl⟩ | ⟨hr, hv, rfl⟩⟩ := h
    · simp [exec, execCsrw, ha, fail]
    · simp [exec, execCsrw, ha, hr, fail]
    · simp [exec, execCsrw, ha, hr, hv, fail]
  | seed => obtain ⟨hz, rfl⟩ := h; simp [exec, execSeed, hz, fail]
  | next t => obtain ⟨hs, rfl⟩ := h; simp [exec, execNext, hs, fail]
  | jump => obtain ⟨hs, rfl⟩ := h; simp [exec, execJump, hs, fail]
  | ljump => obtain ⟨hs, rfl⟩ := h; simp [exec, execLjump, hs, fail]
  | cntr a => obtain ⟨ha, rfl⟩ := h; simp [exec, execCntr, ha, fail]

/-- The converse of the second case of `exec_cases`. -/
theorem exec_of_effect (h : Effect s s' q i) : exec i s = .next (s'.respond q) := by
  cases i with
  | nop | trki d | trkf d | stclr => obtain ⟨rfl, rfl⟩ := h; rfl
  | csrr a => obtain ⟨c, ha, rfl, rfl⟩ := h; simp [exec, execCsrr, ha, ok]
  | csrw a d => obtain ⟨c, ha, hr, hv, rfl, rfl⟩ := h; simp [exec, execCsrw, ha, hr, hv, ok]
  | seed => obtain ⟨hz, rfl, rfl⟩ := h; simp [exec, execSeed, hz, ok]
  | next t => obtain ⟨hs, rfl, rfl⟩ := h; simp [exec, execNext, hs, ok]
  | jump => obtain ⟨hs, rfl, rfl⟩ := h; simp [exec, execJump, hs, ok]
  | ljump => obtain ⟨hs, rfl, rfl⟩ := h; simp [exec, execLjump, hs, ok]
  | cntr a => obtain ⟨c, ha, rfl, rfl⟩ := h; simp [exec, execCntr, ha, ok]

/-! ## Repeating a command that failed -/

/-- No command's checks read ERR or the response, so what raised an error raises it again after any error. -/
theorem raises_raise (h : Raises s e i) (e' : ErrorCode) : Raises (s.raise e') e i := by
  cases i <;> exact h

@[simp] theorem stickyErr_stickyErr (err c : BitVec 4) : stickyErr (stickyErr err c) c = stickyErr err c := by
  by_cases h : err = 0
  · rw [h]
    exact ite_self c
  · rw [stickyErr_of_ne_zero h, stickyErr_of_ne_zero h]

@[simp] theorem raise_raise (s : State) (e : ErrorCode) : (s.raise e).raise e = s.raise e := by
  simp [State.raise]

theorem exec_raise_of_raises (h : Raises s e i) : exec i (s.raise e) = .next (s.raise e) := by
  rw [exec_of_raises (raises_raise h e), raise_raise]

/-! ## Repeating an idempotent command -/

/-- The commands that 20_memory.md R88 lists as idempotent. -/
def Idempotent : Instr → Prop
  | .nop | .csrr _ | .csrw _ _ | .seed | .cntr _ | .stclr => True
  | .next _ | .jump | .ljump | .trki _ | .trkf _ => False

/-- A CSRW finds the value it wrote and leaves it. -/
theorem writeCsr_respond_writeCsr (s : State) (c : Csr) (d : Word) (q : DWord) :
    ((s.writeCsr c d).respond q).writeCsr c d = (s.writeCsr c d).respond q := by
  cases c <;> rfl

/-- In the state an idempotent command leaves, its effect is to leave that state, with the same result. -/
theorem effect_respond (hi : Idempotent i) (h : Effect s s' q i) : Effect (s'.respond q) (s'.respond q) q i := by
  cases i with
  | nop => exact ⟨rfl, h.2⟩
  | csrr a => obtain ⟨c, ha, rfl, rfl⟩ := h; exact ⟨c, ha, rfl, by cases c <;> rfl⟩
  | csrw a d =>
    obtain ⟨c, ha, hr, hv, rfl, rfl⟩ := h
    exact ⟨c, ha, hr, hv, (writeCsr_respond_writeCsr s c d 0).symm, rfl⟩
  | seed => obtain ⟨hz, rfl, rfl⟩ := h; exact ⟨hz, rfl, rfl⟩
  | cntr a => obtain ⟨c, ha, rfl, rfl⟩ := h; exact ⟨c, ha, rfl, rfl⟩
  | stclr => obtain ⟨rfl, rfl⟩ := h; exact ⟨rfl, rfl⟩
  | next t | jump | ljump | trki d | trkf d => exact hi.elim

theorem exec_respond_of_effect (hi : Idempotent i) (h : Effect s s' q i) :
    exec i (s'.respond q) = .next (s'.respond q) :=
  exec_of_effect (s' := s'.respond q) (effect_respond hi h)

/-! ## The commands that only read -/

theorem eq_badAddr_of_read_raises (hi : i = .nop ∨ (∃ a, i = .csrr a) ∨ ∃ a, i = .cntr a) (h : Raises s e i) :
    e = .badAddr := by
  obtain rfl | ⟨a, rfl⟩ | ⟨a, rfl⟩ := hi
  · exact h.elim
  · exact h.2
  · exact h.2

theorem eq_of_read_effect (hi : i = .nop ∨ (∃ a, i = .csrr a) ∨ ∃ a, i = .cntr a) (h : Effect s s' q i) :
    s' = s := by
  obtain rfl | ⟨a, rfl⟩ | ⟨a, rfl⟩ := hi
  · exact h.1
  · obtain ⟨c, -, hs, -⟩ := h
    exact hs
  · obtain ⟨c, -, hs, -⟩ := h
    exact hs

/-! ## The statements -/

/-- Settles O43: a command that failed fails again and finds ERR set, and an idempotent one that succeeded
finds its effect taken. -/
theorem repeatingAnIdempotentCommand : Obligations.RepeatingAnIdempotentCommand := by
  constructor
  · intro i s t ht hc
    obtain ⟨e, he, rfl⟩ | ⟨s', q, he, rfl⟩ := exec_next_cases ht
    · exact exec_raise_of_raises he
    · have hi : Idempotent i := by
        obtain rfl | rfl | rfl | ⟨a, rfl⟩ | ⟨a, rfl⟩ | ⟨a, d, rfl⟩ | ⟨r, hr, hst⟩ := hc
        iterate 6 exact trivial
        · cases hr
          exact absurd rfl hst
      exact exec_respond_of_effect hi he
  · intro i s t ht hi
    obtain ⟨e, he, rfl⟩ | ⟨s', q, he, rfl⟩ := exec_next_cases ht
    · obtain rfl := eq_badAddr_of_read_raises hi he
      exact .inr rfl
    · obtain rfl := eq_of_read_effect hi he
      exact .inl ⟨q, rfl⟩

/-- Settles O47: a byte is a digit of the word to the base 256, and the two halves of a result are its two words. -/
theorem bytesAreLittleEndian : Obligations.BytesAreLittleEndian := by
  constructor
  · intro w
    have htop : w.toNat / 16777216 % 256 = w.toNat / 16777216 := by omega
    simp [wordBytes, Nat.shiftRight_eq_div_pow, htop]
  · intro lo hi
    have hlo : (hi ++ lo).extractLsb' 0 32 = lo := BitVec.extractLsb'_append_eq_right
    have hhi : (hi ++ lo).extractLsb' 32 32 = hi := BitVec.extractLsb'_append_eq_left
    rw [resultBytes, hlo, hhi]

end Sys2Proof.Machine

/-!
PROOFS. Which command words decode, and to what: the decoder's checks as conditions on the fields of CMD, the encoder as
its inverse, the rows of the match and mask table and the list of illegal words as the same conditions, and what the
step does with a command word (30_encoding.md R111, R114, R115, R116, R117, R120, R121).
-/

namespace Sys2Proof

/-! ## The fields as arithmetic on the number CMD (30_encoding.md R111) -/

@[simp] theorem opField_toNat (w : Word) : (opField w).toNat = w.toNat % 256 := by simp [opField]

@[simp] theorem aField_toNat (w : Word) : (aField w).toNat = w.toNat / 256 % 256 := by
  simp [aField, Nat.shiftRight_eq_div_pow]

theorem rsvdField_toNat (w : Word) : (rsvdField w).toNat = w.toNat / 2 ^ 17 := by
  have hw : w.toNat / 2 ^ 17 < 2 ^ 15 := by omega
  rw [rsvdField, BitVec.extractLsb'_toNat, Nat.shiftRight_eq_div_pow, Nat.mod_eq_of_lt hw]

theorem tField_iff (w : Word) : tField w = true ↔ w.toNat / 2 ^ 16 % 2 = 1 := by
  rw [tField, BitVec.getLsbD, Nat.testBit_eq_decide_div_mod_eq, decide_eq_true_iff]

/-! ## The opcodes -/

/-- The command of an opcode has that opcode, the A and T fields where its row leaves them free, and the operand D
(30_encoding.md R114). -/
theorem ofOpcode_eq_some {op a : BitVec 8} {t : Bool} {d : Word} {i : Instr} (h : ofOpcode op a t d = some i) :
    i.opcode = op ∧ i.aBits = (if takesA op then a else 0) ∧ i.tBit = (t && op == 0x04) ∧
      ∀ d', i.operand = some d' → d' = d := by
  have hop : BitVec.ofNat 8 op.toNat = op := BitVec.ofNat_toNat 8 op
  unfold ofOpcode at h
  split at h <;> cases h
  all_goals
    simp only [*] at hop
    subst hop
    simp [Instr.opcode, Instr.aBits, Instr.tBit, Instr.operand, takesA]

/-- Every command is the command of its own fields. -/
theorem ofOpcode_opcode (i : Instr) : ofOpcode i.opcode i.aBits i.tBit (i.operand.getD 0) = some i := by
  cases i <;> rfl

theorem opcode_le (i : Instr) : i.opcode.toNat ≤ 10 := by cases i <;> simp [Instr.opcode]

/-- The opcodes 0x00..0x0A are those with a command (30_encoding.md R114). -/
theorem exists_ofOpcode_iff (op a : BitVec 8) (t : Bool) (d : Word) :
    (∃ i, ofOpcode op a t d = some i) ↔ op.toNat ≤ 10 := by
  constructor
  · rintro ⟨i, hi⟩
    obtain ⟨rfl, -⟩ := ofOpcode_eq_some hi
    exact opcode_le i
  · intro hle
    unfold ofOpcode
    interval_cases op.toNat <;> exact ⟨_, rfl⟩

/-- CSRW, TRKI and TRKF are the opcodes that read D (30_encoding.md R111). -/
theorem ofOpcode_ignores_d {op : BitVec 8} (h2 : op.toNat ≠ 2) (h7 : op.toNat ≠ 7) (h8 : op.toNat ≠ 8)
    (a : BitVec 8) (t : Bool) (d d' : Word) : ofOpcode op a t d = ofOpcode op a t d' := by
  unfold ofOpcode
  split
  case h_3 h => exact absurd h h2
  case h_8 h => exact absurd h h7
  case h_9 h => exact absurd h h8
  all_goals rfl

/-! ## What the decoder accepts -/

/-- A command word passes the four checks of the decoder (30_encoding.md R116). -/
def PassesChecks (w : Word) : Prop :=
  rsvdField w = 0 ∧ (opField w).toNat ≤ 10 ∧ (tField w = true → opField w = 0x04) ∧
    (aField w ≠ 0 → takesA (opField w) = true)

/-- The decoder answers the command of the opcode, where the checks on RSVD, T and A pass (30_encoding.md R116). -/
theorem decode_eq_instr_iff {c : Command} {i : Instr} :
    decode c = .instr i ↔ rsvdField c.cmd = 0 ∧
      ofOpcode (opField c.cmd) (aField c.cmd) (tField c.cmd) c.d = some i ∧
      (tField c.cmd = true → opField c.cmd = 0x04) ∧ (aField c.cmd ≠ 0 → takesA (opField c.cmd) = true) := by
  by_cases hr : rsvdField c.cmd = 0
  · rw [decode_of_rsvd_zero hr]
    cases ofOpcode (opField c.cmd) (aField c.cmd) (tField c.cmd) c.d with
    | none => simp
    | some j =>
      have hT : (tField c.cmd && opField c.cmd != 0x04) = true ↔ ¬(tField c.cmd = true → opField c.cmd = 0x04) := by
        simp
      have hA : (aField c.cmd != 0 && !takesA (opField c.cmd)) = true ↔
          ¬(aField c.cmd ≠ 0 → takesA (opField c.cmd) = true) := by simp
      simp only [hr, true_and, Option.some.injEq, hT, hA]
      split
      · next ht => exact ⟨nofun, fun ⟨_, ht', _⟩ => absurd ht' ht⟩
      · next ht =>
        split
        · next ha => exact ⟨nofun, fun ⟨_, _, ha'⟩ => absurd ha' ha⟩
        · next ha =>
          exact ⟨fun h => ⟨Decoded.instr.inj h, not_not.1 ht, not_not.1 ha⟩, fun ⟨h, _, _⟩ => congrArg _ h⟩
  · simp only [decode_reserved hr, reduceCtorEq, hr, false_and]

theorem exists_decode_iff (c : Command) : (∃ i, decode c = .instr i) ↔ PassesChecks c.cmd := by
  simp only [decode_eq_instr_iff, exists_and_left, exists_and_right, exists_ofOpcode_iff, PassesChecks]

/-- A word that decodes to a command is the word the encoder gives for it (30_encoding.md R114, R116). -/
theorem encode_cmd_of_decode {c : Command} {i : Instr} (h : decode c = .instr i) : (encode i).cmd = c.cmd := by
  obtain ⟨hr, ho, ht, ha⟩ := decode_eq_instr_iff.1 h
  obtain ⟨hop, haBits, htBit, -⟩ := ofOpcode_eq_some ho
  apply word_eq_of_fields
  · rw [opField_encode, hop]
  · rw [aField_encode, haBits]
    split
    · rfl
    · next hA => exact (not_imp_comm.1 ha hA).symm
  · rw [tField_encode, htBit]
    cases hT : tField c.cmd
    · rfl
    · simp [ht hT]
  · rw [rsvdField_encode, hr]

theorem operand_of_decode {c : Command} {i : Instr} {d : Word} (h : decode c = .instr i) (hd : i.operand = some d) :
    d = c.d := by
  obtain ⟨-, ho, -, -⟩ := decode_eq_instr_iff.1 h
  obtain ⟨-, -, -, hoperand⟩ := ofOpcode_eq_some ho
  exact hoperand d hd

@[simp] theorem decode_encode (i : Instr) : decode (encode i) = .instr i := by
  rw [decode_eq_instr_iff, opField_encode, aField_encode, tField_encode, rsvdField_encode]
  refine ⟨rfl, ofOpcode_opcode i, ?_, ?_⟩
  · cases i <;> simp [Instr.opcode, Instr.tBit]
  · cases i <;> simp [Instr.opcode, Instr.aBits, takesA]

/-- Settles O1: the encoder puts a command's fields where the decoder reads them, and the four checks leave no other
bit free. -/
theorem decodeAndEncodeAgree : Obligations.DecodeAndEncodeAgree :=
  ⟨decode_encode, fun _ _ h => ⟨encode_cmd_of_decode h, fun _ => operand_of_decode h⟩⟩

/-! ## The match and mask table -/

/-- The rows as conditions on the fields: OP and RSVD are fixed in every row, T in every row but NEXT's, and A in the
rows of the opcodes that take none (30_encoding.md R115). -/
theorem opTable_fields : ∀ r ∈ opTable,
    (opField r.mask = BitVec.allOnes 8 ∧ (opField r.pattern).toNat ≤ 10) ∧
    (rsvdField r.mask = BitVec.allOnes 15 ∧ rsvdField r.pattern = 0) ∧
    (opField r.pattern ≠ 0x04 → tField r.mask = true ∧ tField r.pattern = false) ∧
    (takesA (opField r.pattern) = false → aField r.mask = BitVec.allOnes 8 ∧ aField r.pattern = 0) := by
  decide +kernel

theorem opField_and (v w : Word) : opField (v &&& w) = opField v &&& opField w := BitVec.extractLsb'_and

theorem aField_and (v w : Word) : aField (v &&& w) = aField v &&& aField w := BitVec.extractLsb'_and

theorem rsvdField_and (v w : Word) : rsvdField (v &&& w) = rsvdField v &&& rsvdField w := BitVec.extractLsb'_and

theorem tField_and (v w : Word) : tField (v &&& w) = (tField v && tField w) := BitVec.getLsbD_and

/-- A word that matches a row passes the decoder's checks. -/
theorem passesChecks_of_matches {w : Word} {r : OpRow} (hr : r ∈ opTable) (h : w &&& r.mask = r.pattern) :
    PassesChecks w := by
  obtain ⟨⟨hop, hle⟩, ⟨hrsvd, hrsvd0⟩, ht, ha⟩ := opTable_fields r hr
  have hOp : opField w = opField r.pattern := by rw [← h, opField_and, hop, BitVec.and_allOnes]
  refine ⟨?_, hOp ▸ hle, fun hT => ?_, fun hA => ?_⟩
  · rw [← hrsvd0, ← h, rsvdField_and, hrsvd, BitVec.and_allOnes]
  · by_contra h4
    obtain ⟨hmask, hpattern⟩ := ht (hOp ▸ h4)
    rw [← h, tField_and, hT, hmask] at hpattern
    cases hpattern
  · by_contra htakes
    obtain ⟨hmask, hpattern⟩ := ha (hOp ▸ Bool.not_eq_true _ ▸ htakes)
    rw [← h, aField_and, hmask, BitVec.and_allOnes] at hpattern
    exact hA hpattern

theorem opTable_mnemonic (i : Instr) : ∃ r ∈ opTable, r.mnemonic = i.mnemonic := by
  cases i <;> simp [opTable, Instr.mnemonic]

theorem opTable_mnemonic_inj : ∀ r ∈ opTable, ∀ r' ∈ opTable, r.mnemonic = r'.mnemonic → r = r' := by decide

theorem encodeMatchesRow (i : Instr) : Laws.EncodeMatchesRow.Statement i := by
  cases i with
  | nop => exact Laws.EncodeMatchesRow.nop
  | csrr a => exact Laws.EncodeMatchesRow.csrr a
  | csrw a d => exact Laws.EncodeMatchesRow.csrw a d
  | seed => exact Laws.EncodeMatchesRow.seed
  | next t => exact Laws.EncodeMatchesRow.next t
  | jump => exact Laws.EncodeMatchesRow.jump
  | ljump => exact Laws.EncodeMatchesRow.ljump
  | trki d => exact Laws.EncodeMatchesRow.trki d
  | trkf d => exact Laws.EncodeMatchesRow.trkf d
  | cntr a => exact Laws.EncodeMatchesRow.cntr a
  | stclr => exact Laws.EncodeMatchesRow.stclr

/-- A word that decodes to a command matches the row of its mnemonic and no other (30_encoding.md R115). -/
theorem matches_iff_of_decode {c : Command} {i : Instr} {r : OpRow} (hi : decode c = .instr i) (hr : r ∈ opTable) :
    c.cmd &&& r.mask = r.pattern ↔ r.mnemonic = i.mnemonic := by
  have h := encodeMatchesRow i r hr
  rw [encode_cmd_of_decode hi, OpRow.matchesWord] at h
  rw [← beq_iff_eq, h, beq_iff_eq]

/-- Settles O2: a word that matches a row passes the decoder's checks, and a command's word matches the row of its
mnemonic only. -/
theorem commandWordsAreTheTableRows : Obligations.CommandWordsAreTheTableRows := by
  intro c
  have hcommand {r : OpRow} (hr : r ∈ opTable) (hm : c.cmd &&& r.mask = r.pattern) : ∃ i, decode c = .instr i :=
    (exists_decode_iff c).2 (passesChecks_of_matches hr hm)
  refine ⟨⟨?_, ?_⟩, ?_, ?_⟩
  · rintro ⟨i, hi⟩
    obtain ⟨r, hr, hname⟩ := opTable_mnemonic i
    exact ⟨r, hr, (matches_iff_of_decode hi hr).2 hname⟩
  · rintro ⟨r, hr, hm⟩
    exact hcommand hr hm
  · intro i hi r hr hm
    exact (matches_iff_of_decode hi hr).1 hm
  · intro r hr r' hr' hm hm'
    obtain ⟨i, hi⟩ := hcommand hr hm
    have hname := (matches_iff_of_decode hi hr).1 hm
    have hname' := (matches_iff_of_decode hi hr').1 hm'
    exact opTable_mnemonic_inj r hr r' hr' (hname.trans hname'.symm)

end Sys2Proof

namespace Sys2Proof.Machine

/-! ## The illegal words -/

/-- The list of illegal words in 30_encoding.md R117 is that of the words which fail a check of R116. -/
theorem illegalWord_iff (w : Word) : illegalWord w.toNat ↔ ¬ PassesChecks w := by
  have hr : rsvdField w = 0 ↔ w.toNat / 2 ^ 17 = 0 := by rw [← rsvdField_toNat, ← BitVec.toNat_inj]; rfl
  have ho (n : Nat) (hn : n < 256) : opField w = BitVec.ofNat 8 n ↔ w.toNat % 256 = n := by
    rw [← BitVec.toNat_inj, opField_toNat, BitVec.toNat_ofNat, Nat.mod_eq_of_lt hn]
  have ha : aField w = 0 ↔ w.toNat / 256 % 256 = 0 := by rw [← aField_toNat, ← BitVec.toNat_inj]; rfl
  have h4 : opField w = 0x04 ↔ w.toNat % 256 = 4 := ho 4 (by decide)
  have hA : takesA (opField w) = true ↔ w.toNat % 256 = 1 ∨ w.toNat % 256 = 2 ∨ w.toNat % 256 = 9 := by
    rw [← ho 1 (by decide), ← ho 2 (by decide), ← ho 9 (by decide)]
    simp [takesA, or_assoc]
  simp only [illegalWord, PassesChecks, hr, opField_toNat, tField_iff, h4, ne_eq, ha, hA]
  omega

/-! ## The step with a command word -/

theorem step_issue {s : State} {c : Command} {rest : List HostEvent} (hh : s.host = .issue c :: rest) :
    step s = runCommand c { s with host := rest } := turn_event hh

/-- Settles O3: the illegal words are those that fail one of the decoder's checks. -/
theorem illegalWordsRaiseIllegal : Obligations.IllegalWordsRaiseIllegal := by
  constructor
  · intro s c rest hh hw
    rw [step_issue hh]
    cases hd : decode c with
    | illegal why => exact runCommand_illegal hd _
    | instr i => exact absurd ((exists_decode_iff c).1 ⟨i, hd⟩) ((illegalWord_iff c.cmd).1 hw)
  · intro c hw
    rw [exists_decode_iff]
    rwa [illegalWord_iff, not_not] at hw

/-- Settles O6: the turn takes the event from the list and runs what the decoder reads. -/
theorem stepRunsTheDecodedCommand : Obligations.StepRunsTheDecodedCommand := by
  intro s c rest i hh hd
  rw [step_issue hh, runCommand_instr hd]

theorem decode_ignores_d {cmd : Word} (h2 : cmd.toNat % 256 ≠ 2) (h7 : cmd.toNat % 256 ≠ 7)
    (h8 : cmd.toNat % 256 ≠ 8) (d d' : Word) : decode ⟨cmd, d⟩ = decode ⟨cmd, d'⟩ := by
  rw [← opField_toNat] at h2 h7 h8
  simp only [decode, ofOpcode_ignores_d h2 h7 h8 _ _ d d']

/-- Settles O5: D reaches the block through the decoder only. -/
theorem otherCommandsIgnoreD : Obligations.OtherCommandsIgnoreD := by
  intro s cmd d d' rest h2 h7 h8
  rw [step_issue rfl, step_issue rfl, runCommand, runCommand, decode_ignores_d h2 h7 h8 d d']

/-! ## The assembler's lines -/

theorem decode_of_encode_eq {i : Instr} {c : Command} (h : encode i = c) : decode c = .instr i := h ▸ decode_encode i

/-- A row of examples holds where the line assembles to the command and the encoder gives the words: the words then
decode to the command. -/
theorem examplesHold_of_encode {rows : List (String × Word × Word × Instr)}
    (h : ∀ r ∈ rows, assembleText r.1 = some [r.2.2.2] ∧ encode r.2.2.2 = ⟨r.2.1, r.2.2.1⟩) :
    ∀ r ∈ rows, assembleText r.1 = some [r.2.2.2] ∧ encode r.2.2.2 = ⟨r.2.1, r.2.2.1⟩ ∧
      decode ⟨r.2.1, r.2.2.1⟩ = .instr r.2.2.2 := by
  intro r hr
  obtain ⟨hline, hwords⟩ := h r hr
  exact ⟨hline, hwords, decode_of_encode_eq hwords⟩

/-- Settles O4: the lines and the encoder's words by evaluation, the decoder by its inverse. -/
theorem encodingExamplesHold : Obligations.EncodingExamplesHold := examplesHold_of_encode (by decide +kernel)

theorem fits_toNat {n : Nat} (x : BitVec n) : fits n x.toNat = some x := by
  rw [fits, if_pos x.isLt, BitVec.ofNat_toNat, BitVec.setWidth_eq]

/-! ## SEEDV -/

theorem run_succ_of_step {M : Host.Core} {s t : M.State} (h : M.step s = .next t) (n : Nat) :
    M.run (n + 1) s = M.run n t := by rw [Host.Core.run, h]

/-- A command at the head of the host's list is run, and the run goes on from the state it answers (30_encoding.md
R110). -/
theorem run_issueAll {s t : State} {i : Instr} {is : List Instr} (hh : s.host = issueAll (i :: is))
    (h : exec i { s with host := issueAll is } = .next t) (n : Nat) : core.run (n + 1) s = core.run n t := by
  have hstep : step s = .next t := (stepRunsTheDecodedCommand s _ _ i hh (decode_encode i)).trans h
  exact run_succ_of_step (M := core) hstep n

/-- A CSRW that passes its checks, at the head of the host's list. -/
theorem run_csrw {s : State} {c : Csr} {d : Word} {is : List Instr}
    (hh : s.host = issueAll (.csrw (csrAddress c) d :: is)) (hro : csrReadOnly c = false)
    (hv : csrAccepts c d = true) (n : Nat) :
    core.run (n + 1) s = core.run n ((State.writeCsr { s with host := issueAll is } c d).respond 0) :=
  run_issueAll hh (exec_of_effect ⟨c, csrAt_csrAddress c, hro, hv, rfl, rfl⟩) n

/-- The four CSRW of SEEDV fill the seed buffer (30_encoding.md R120). -/
theorem run_seedvExpansion (s : State) (w : Quad) :
    core.run 5 { s with host := issueAll (seedvExpansion w) } =
      core.run 1 { s with host := issueAll [.seed], seedbuf := w, response := some ⟨0, 0⟩ } := by
  rw [seedvExpansion, run_csrw rfl rfl rfl 4, run_csrw rfl rfl rfl 3, run_csrw rfl rfl rfl 2, run_csrw rfl rfl rfl 1]
  rfl

/-- Settles O48: four writes fill the seed buffer, and SEED finds there the words of SEEDV. -/
theorem seedvSeedsTheGenerator : Obligations.SeedvSeedsTheGenerator := by
  refine ⟨fun a b c d => by simp [assemble, fits_toNat], fun s w => ?_⟩
  refine (run_seedvExpansion s w).trans ?_
  by_cases hw : w = quadZero
  · have hseed := exec_of_raises (i := .seed) (e := .zeroSeed)
      (s := { s with host := [], seedbuf := w, response := some ⟨0, 0⟩ }) ⟨(allZero_iff w).2 hw, rfl⟩
    exact (run_issueAll rfl hseed 0).trans (congrArg _ (if_pos hw).symm)
  · have hseed := exec_of_effect (i := .seed) (q := 0)
      (s := { s with host := [], seedbuf := w, response := some ⟨0, 0⟩ }) ⟨(allZero_eq_false_iff w).2 hw, rfl, rfl⟩
    exact (run_issueAll rfl hseed 0).trans (congrArg _ (if_neg hw).symm)

end Sys2Proof.Machine

/-!
PROOFS. The period of the generator (40_generator.md R163). Polynomials over GF(2) are numbers, bit `k` the coefficient
of x^k, and act on the states with the step map for x. The characteristic polynomial of the step map takes every state
to zero, so arithmetic modulo it computes the powers of the step map. They show that 2^128 - 1 steps are the identity,
and that for each prime factor `p` of 2^128 - 1 no state but zero is a fixed point of (2^128 - 1) / p steps.
-/

namespace Sys2Proof.Machine

/-! ## Sums over the bits of a number -/

section BitSum

variable {α β : Type}

/-- The sum of `stepᵏ a` over the set bits `k < n` of `p`. With `add` for exclusive-or and `step` for a map it
evaluates a polynomial; with `add` for a product and `step` for its square it is a power. Here and in `polyTimesX`
the functions of Nat stand by name, since the kernel computes these at once. -/
def bitSum (add : α → α → α) (zero : α) (step : α → α) : (n p : Nat) → α → α
  | 0, _, _ => zero
  | n + 1, p, a =>
    bif (p.mod 2).beq 1 then add a (bitSum add zero step n (p.div 2) (step a))
    else bitSum add zero step n (p.div 2) (step a)

theorem bitSum_succ (add : α → α → α) (zero : α) (step : α → α) (n p : Nat) (a : α) :
    bitSum add zero step (n + 1) p a =
      if p.testBit 0 then add a (bitSum add zero step n (p / 2) (step a))
      else bitSum add zero step n (p / 2) (step a) := by
  have h : (p.mod 2).beq 1 = p.testBit 0 := by
    rw [Nat.testBit_zero, Bool.eq_iff_iff, Nat.beq_eq, decide_eq_true_iff]
    rfl
  rw [bitSum, h, Bool.cond_eq_ite]
  rfl

/-- A map that respects the operations takes the sum to the sum. -/
theorem bitSum_map {add : α → α → α} {zero : α} {step : α → α} {add' : β → β → β} {zero' : β} {step' : β → β}
    {φ : α → β} (hzero : φ zero = zero') (hadd : ∀ a b, φ (add a b) = add' (φ a) (φ b))
    (hstep : ∀ a, φ (step a) = step' (φ a)) (n p : Nat) (a : α) :
    φ (bitSum add zero step n p a) = bitSum add' zero' step' n p (φ a) := by
  induction n generalizing p a with
  | zero => exact hzero
  | succ n ih =>
    rw [bitSum_succ, bitSum_succ, apply_ite φ, hadd, ih, hstep]

/-- Square and multiply: the composition of the `2^k`-fold iterates over the bits of `e`. -/
theorem bitSum_comp (f : α → α) (n e : Nat) :
    bitSum (fun g h => g ∘ h) id (fun g => g ∘ g) n e f = f^[e % 2 ^ n] := by
  induction n generalizing e f with
  | zero => rw [pow_zero, Nat.mod_one]; rfl
  | succ n ih =>
    have he : e % 2 ^ (n + 1) = e % 2 + 2 * (e / 2 % 2 ^ n) := by rw [pow_succ', Nat.mod_mul]
    have hf : (f ∘ f)^[e / 2 % 2 ^ n] = f^[2 * (e / 2 % 2 ^ n)] := (Function.iterate_mul f 2 _).symm
    rw [bitSum_succ, ih, hf, he, Function.iterate_add, Nat.testBit_zero]
    obtain h | h := Nat.mod_two_eq_zero_or_one e <;> simp [h]

end BitSum

/-! ## Polynomials in the step map -/

/-- The polynomial with the bits `k < n` of `p`, at the step map. -/
def stepSum (n p : Nat) : Quad → Quad := bitSum quadXor quadZero stepGen n p

theorem stepSum_succ (n p : Nat) (v : Quad) :
    stepSum (n + 1) p v =
      if p.testBit 0 then quadXor v (stepSum n (p / 2) (stepGen v)) else stepSum n (p / 2) (stepGen v) :=
  bitSum_succ quadXor quadZero stepGen n p v

theorem quadXor_cancel_left (p q : Quad) : quadXor p (quadXor p q) = q := by
  rw [← quadXor_assoc, quadXor_self, quadXor_zero_left]

theorem stepSum_poly_xor (n p q : Nat) (v : Quad) :
    stepSum n (p ^^^ q) v = quadXor (stepSum n p v) (stepSum n q v) := by
  induction n generalizing p q v with
  | zero => exact (quadXor_zero quadZero).symm
  | succ n ih =>
    simp only [stepSum_succ, Nat.xor_div_two, Nat.testBit_xor, ih]
    cases p.testBit 0 <;> cases q.testBit 0
    · rfl
    · exact quadXor_left_comm ..
    · exact (quadXor_assoc ..).symm
    · simp [quadXor_assoc, quadXor_left_comm _ v, quadXor_cancel_left]

theorem stepSum_xor (n p : Nat) (u w : Quad) :
    stepSum n p (quadXor u w) = quadXor (stepSum n p u) (stepSum n p w) := by
  induction n generalizing p u w with
  | zero => exact (quadXor_zero quadZero).symm
  | succ n ih =>
    simp only [stepSum_succ, stepGen_xor, ih]
    cases p.testBit 0
    · rfl
    · simp [quadXor_assoc, quadXor_left_comm]

@[simp] theorem stepSum_poly_zero (n : Nat) (v : Quad) : stepSum n 0 v = quadZero := by
  simpa using stepSum_poly_xor n 0 0 v

@[simp] theorem stepSum_zero (n p : Nat) : stepSum n p quadZero = quadZero := by
  simpa using stepSum_xor n p quadZero quadZero

theorem stepSum_stepGen (n p : Nat) (v : Quad) : stepSum n p (stepGen v) = stepGen (stepSum n p v) :=
  (bitSum_map stepGen_zero stepGen_xor (fun _ => rfl) n p v).symm

/-- The last summand split off. -/
theorem stepSum_succ_top (n p : Nat) (v : Quad) :
    stepSum (n + 1) p v = quadXor (stepSum n p v) (if p.testBit n then stepGen^[n] v else quadZero) := by
  induction n generalizing p v with
  | zero =>
    rw [stepSum_succ]
    cases p.testBit 0 <;> simp [stepSum, bitSum]
  | succ n ih =>
    rw [stepSum_succ, ih, stepSum_succ n, Nat.testBit_div_two, ← Function.iterate_succ_apply]
    cases p.testBit 0
    · rfl
    · exact (quadXor_assoc ..).symm

@[simp] theorem stepSum_one (v : Quad) : stepSum 128 1 v = v := by
  rw [stepSum_succ]
  simp

/-! ## Arithmetic modulo the characteristic polynomial -/

/-- The characteristic polynomial of the step map, of degree 128. -/
def charPoly : Nat := 0x100fc65a2006254b11b489db6de18fc01

theorem charPoly_bit : ∀ k < 32, stepSum 129 charPoly ⟨BitVec.twoPow 32 k, 0, 0, 0⟩ = quadZero := by decide +kernel

/-- The step map satisfies its characteristic polynomial. -/
theorem stepSum_charPoly (v : Quad) : stepSum 129 charPoly v = quadZero := by
  induction v using quad_induction_stepGen with
  | xor u w hu hw => rw [stepSum_xor, hu, hw, quadXor_self]
  | step v => rw [stepSum_stepGen, stepGen_eq_zero_iff]
  | first x =>
    induction x using word_induction_xor with
    | zero => exact stepSum_zero 129 charPoly
    | xor x y hx hy => simpa [← stepSum_xor, quadXor_mk] using congrArg₂ quadXor hx hy
    | bit k hk => exact charPoly_bit k hk

/-- The product of `p` and x. -/
def polyTimesX (p : Nat) : Nat := (Nat.mul 2 p).xor (((p.div (2 ^ 127)).mod 2).mul charPoly)

theorem polyTimesX_eq (p : Nat) : polyTimesX p = if (2 * p).testBit 128 then 2 * p ^^^ charPoly else 2 * p := by
  have htop : 2 * p / 2 ^ 128 = p / 2 ^ 127 := by omega
  change 2 * p ^^^ p / 2 ^ 127 % 2 * charPoly = _
  rw [Nat.testBit_eq_decide_div_mod_eq, htop]
  obtain h | h := Nat.mod_two_eq_zero_or_one (p / 2 ^ 127) <;> rw [h] <;> simp

theorem stepSum_polyTimesX (p : Nat) (v : Quad) : stepSum 128 (polyTimesX p) v = stepGen (stepSum 128 p v) := by
  have hdouble : stepSum 129 (2 * p) v = stepGen (stepSum 128 p v) := by
    simp [stepSum_succ 128, stepSum_stepGen]
  have htop : (polyTimesX p).testBit 128 = false := by
    rw [polyTimesX_eq]
    split
    · next h =>
      rw [Nat.testBit_xor, h]
      decide
    · next h => simpa using h
  have hreduce : stepSum 129 (polyTimesX p) v = stepSum 129 (2 * p) v := by
    rw [polyTimesX_eq]
    split
    · rw [stepSum_poly_xor, stepSum_charPoly, quadXor_zero]
    · rfl
  rw [← hdouble, ← hreduce, stepSum_succ_top 128, htop]
  simp

/-- The product of `p` and `q`. -/
def polyMul (p q : Nat) : Nat := bitSum Nat.xor 0 polyTimesX 128 p q

theorem stepSum_polyMul (p q : Nat) (v : Quad) : stepSum 128 (polyMul p q) v = stepSum 128 p (stepSum 128 q v) :=
  bitSum_map (φ := fun q => stepSum 128 q v) (stepSum_poly_zero 128 v) (fun a b => stepSum_poly_xor 128 a b v)
    (fun a => stepSum_polyTimesX a v) 128 p q

/-- The power x^e, for the exponents `e` of at most 128 bits. -/
def powX (e : Nat) : Nat := bitSum polyMul 1 (fun y => polyMul y y) 128 e 2

theorem stepSum_x : stepSum 128 2 = stepGen := by
  have hx : polyTimesX 1 = 2 := by decide
  funext v
  rw [← hx, stepSum_polyTimesX, stepSum_one]

/-- The power x^e at the step map is `e` steps. -/
theorem stepSum_powX {e : Nat} (he : e < 2 ^ 128) (v : Quad) : stepSum 128 (powX e) v = stepGen^[e] v := by
  have h : stepSum 128 (powX e) = stepGen^[e % 2 ^ 128] := by
    rw [← bitSum_comp, ← stepSum_x]
    exact bitSum_map (φ := stepSum 128) (funext stepSum_one) (fun p q => funext (stepSum_polyMul p q))
      (fun p => funext (stepSum_polyMul p p)) 128 e 2
  rw [h, Nat.mod_eq_of_lt he]

/-! ## The certificate of the period -/

/-- The prime factors `p` of 2^128 - 1 (93_implementation_defined.md G6), each with the inverse of
x^((2^128 - 1) / p) + 1. -/
def periodCertificate : List (Nat × Nat) :=
  [(3, 0x188ce7ea029c4bf6dded83847a711395),
   (5, 0xd0b81dc3de8363ddddfd32c4ef886bf4),
   (17, 0x7d5de34ef14456cdccabf22143842b52),
   (257, 0xf98c9dfcc04c64b2b8cfb96508e78fcd),
   (641, 0x40b0c263cbfa8427d62f24e6089d3f8b),
   (65537, 0x7c352e1c640bd6131b1eecf072501922),
   (274177, 0x464896dcfdd900fb8dfdabe1bc3542b9),
   (6700417, 0xcfaf9079377931cb1b4625d2ff58d222),
   (67280421310721, 0x39046ea60511db4048a3c9d486cbc62a)]

/-- x^(2^128 - 1) is 1, and the inverses of the certificate are inverses; one theorem, so that the kernel computes the
squares once. -/
theorem periodCertificate_checks :
    powX (2 ^ 128 - 1) = 1 ∧
    ∀ c ∈ periodCertificate, polyMul c.2 (powX ((2 ^ 128 - 1) / c.1) ^^^ 1) = 1 := by decide +kernel

/-- The largest factor is prime by Lucas's test: 3 is a primitive root. -/
theorem prime_largestFactor : Nat.Prime 67280421310721 := by
  refine lucas_primality _ (3 : ZMod 67280421310721) ?_ fun q hq hdvd => ?_
  · norm_num1
    reduce_mod_char
  · have hprod : (List.replicate 8 2 ++ [5, 47, 373, 2998279]).prod = 67280421310721 - 1 := rfl
    have hprimes : ∀ r ∈ List.replicate 8 2 ++ [5, 47, 373, 2998279], Prime r := by norm_num [← Nat.prime_iff]
    have hmem := mem_list_primes_of_dvd_prod hq.prime hprimes (hprod ▸ hdvd)
    obtain rfl | rfl | rfl | rfl | rfl : q = 2 ∨ q = 5 ∨ q = 47 ∨ q = 373 ∨ q = 2998279 := by simpa using hmem
    all_goals
      norm_num1
      reduce_mod_char
      decide

theorem exists_mem_periodCertificate {p : Nat} (hp : p.Prime) (hdvd : p ∣ 2 ^ 128 - 1) :
    ∃ u, (p, u) ∈ periodCertificate := by
  have hprod : (periodCertificate.map Prod.fst).prod = 2 ^ 128 - 1 := by decide
  have hprimes : ∀ q ∈ periodCertificate.map Prod.fst, Prime q := by
    simp only [periodCertificate, List.map, List.forall_mem_cons, ← Nat.prime_iff, prime_largestFactor]
    norm_num
  simpa using mem_list_primes_of_dvd_prod hp.prime hprimes (hprod ▸ hdvd)

/-! ## The period -/

theorem iterate_stepGen_period (v : Quad) : stepGen^[2 ^ 128 - 1] v = v := by
  obtain ⟨hone, -⟩ := periodCertificate_checks
  rw [← stepSum_powX (by decide), hone, stepSum_one]

/-- Only zero is a fixed point of (2^128 - 1) / p steps: the difference of those steps and the identity is invertible. -/
theorem eq_zero_of_iterate_stepGen_div {p u : Nat} {v : Quad} (hp : (p, u) ∈ periodCertificate)
    (h : stepGen^[(2 ^ 128 - 1) / p] v = v) : v = quadZero := by
  obtain ⟨-, hinv⟩ := periodCertificate_checks
  have hlt : (2 ^ 128 - 1) / p < 2 ^ 128 := (Nat.div_le_self _ _).trans_lt (by decide)
  have hzero : stepSum 128 (powX ((2 ^ 128 - 1) / p) ^^^ 1) v = quadZero := by
    rw [stepSum_poly_xor, stepSum_powX hlt, h, stepSum_one, quadXor_self]
  calc v = stepSum 128 1 v := (stepSum_one v).symm
    _ = stepSum 128 (polyMul u (powX ((2 ^ 128 - 1) / p) ^^^ 1)) v := by rw [hinv _ hp]
    _ = quadZero := by rw [stepSum_polyMul, hzero, stepSum_zero]

/-- A number of steps that returns to `v` is the least one when none of its quotients by a prime returns to `v`. -/
theorem iterate_ne_of_prime_quotients {α : Type} {f : α → α} {v : α} {N : Nat} (hN : f^[N] v = v)
    (hprime : ∀ p, p.Prime → p ∣ N → f^[N / p] v ≠ v) {n : Nat} (hn : 0 < n) (hlt : n < N) : f^[n] v ≠ v := by
  intro h
  obtain ⟨k, hk⟩ := Function.IsPeriodicPt.minimalPeriod_dvd (show Function.IsPeriodicPt f N v from hN)
  have hle : Function.minimalPeriod f v ≤ n := Function.IsPeriodicPt.minimalPeriod_le hn h
  have hk1 : k ≠ 1 := by
    rintro rfl
    omega
  obtain ⟨p, hp, hpk⟩ := Nat.exists_prime_and_dvd hk1
  refine hprime p hp (hk ▸ hpk.mul_left _) ?_
  rw [hk, Nat.mul_div_assoc _ hpk]
  exact (Function.isPeriodicPt_minimalPeriod f v).mul_const _

/-- Settles O27: by the certificate, 2^128 - 1 steps are the identity and no quotient of 2^128 - 1 by a prime factor
returns to a state that is not zero. -/
theorem periodOfTheGenerator : Obligations.PeriodOfTheGenerator := by
  intro v hv
  refine ⟨iterate_stepGen_period v, fun n => iterate_ne_of_prime_quotients (iterate_stepGen_period v) ?_⟩
  intro p hp hdvd h
  obtain ⟨u, hu⟩ := exists_mem_periodCertificate hp hdvd
  exact hv (eq_zero_of_iterate_stepGen_div hu h)

end Sys2Proof.Machine

/-!
PROOFS. The commands SEED and NEXT, the step map in closed form and the output (40_generator.md R151, R152, R156, R160;
43_tracker.md R237), with the rule by which the words of one opcode decode (30_encoding.md R116).
-/

namespace Sys2Proof.Machine

/-! ## The words of one opcode -/

/-- The words of an opcode decode as `f` says when `f` names the opcode's command exactly where the T and A fields pass
their checks. -/
theorem opcodeDecodes_of_iff {op : Nat} {f : BitVec 8 → Bool → Word → Option Instr}
    (hf : ∀ a t d i, f a t d = some i ↔ ofOpcode (BitVec.ofNat 8 op) a t d = some i ∧
      (t = true → BitVec.ofNat 8 op = 0x04) ∧ (a ≠ 0 → takesA (BitVec.ofNat 8 op) = true)) :
    opcodeDecodes op f := by
  intro c hop
  have ho : BitVec.ofNat 8 op = opField c.cmd := by
    rw [← hop, ← opField_toNat, BitVec.ofNat_toNat, BitVec.setWidth_eq]
  have ha : BitVec.ofNat 8 (c.cmd.toNat / 256) = aField c.cmd := by
    rw [← BitVec.toNat_inj, aField_toNat, BitVec.toNat_ofNat]
  have ht : decide (c.cmd.toNat / 2 ^ 16 % 2 = 1) = tField c.cmd := by
    rw [Bool.eq_iff_iff, tField_iff, decide_eq_true_iff]
  have hr : c.cmd.toNat / 2 ^ 17 = 0 ↔ rsvdField c.cmd = 0 := by
    rw [← rsvdField_toNat, ← BitVec.toNat_inj]
    rfl
  have key (i : Instr) : (if c.cmd.toNat / 2 ^ 17 = 0 then f (aField c.cmd) (tField c.cmd) c.d else none) = some i ↔
      decode c = .instr i := by
    rw [decode_eq_instr_iff, ite_eq_iff, hf, ho, hr]
    simp
  rw [ha, ht]
  split
  · next i hi => exact (key i).1 hi
  · next hnone =>
    intro s
    cases hd : decode c with
    | illegal why => exact runCommand_illegal hd s
    | instr i => exact absurd ((key i).2 hd) (by rw [hnone]; exact nofun)

/-! ## SEED -/

/-- Settles O15: a zero buffer raises ZERO_SEED, and any other is loaded. -/
theorem seedLoadsTheBufferOrRaisesZeroSeed : Obligations.SeedLoadsTheBufferOrRaisesZeroSeed := by
  refine ⟨opcodeDecodes_of_iff fun a t d i => ?_, fun s hs => ?_, fun s hs => ?_⟩
  · cases t <;> simp [ofOpcode, takesA, and_comm]
  · exact exec_of_effect ⟨(allZero_eq_false_iff s.seedbuf).2 hs, rfl, rfl⟩
  · exact exec_of_raises (i := .seed) (e := .zeroSeed) ⟨(allZero_iff s.seedbuf).2 hs, rfl⟩

/-! ## The step map and the output -/

/-- Settles O16: `stepGen_mk` up to the order of the words, and `stepGen_xor`. -/
theorem stepMapHasTheClosedForm : Obligations.StepMapHasTheClosedForm := by
  refine ⟨fun a b c d => ?_, stepGen_zero, stepGen_xor⟩
  rw [stepGen_mk, rotl32_eq_rotateLeft _ 11 (by decide), BitVec.xor_assoc a, BitVec.xor_assoc b]

/-- Settles O17: addition of words is addition modulo 2^32. -/
theorem outputIsTheSumOfS0AndS3 : Obligations.OutputIsTheSumOfS0AndS3 := fun a _ _ d => BitVec.toNat_add a d

/-! ## NEXT -/

theorem append_eq_ofNat (hi lo : Word) : hi ++ lo = BitVec.ofNat 64 (hi.toNat * 2 ^ 32 + lo.toNat) := by
  have h := Nat.shiftLeft_add_eq_or_of_lt lo.isLt hi.toNat
  apply BitVec.eq_of_toNat_eq
  rw [BitVec.toNat_append, ← h, Nat.shiftLeft_eq, BitVec.toNat_ofNat, Nat.mod_eq_of_lt (by omega)]

/-- Settles O18: NEXT without a seed raises UNSEEDED; with one its effect and result are those of `Effect`. -/
theorem nextRespondsAndAdvances : Obligations.NextRespondsAndAdvances := by
  refine ⟨opcodeDecodes_of_iff fun a t d i => ?_, fun s t hs => ?_, fun s t hs => ?_⟩
  · simp [ofOpcode, takesA, and_comm]
  · exact exec_of_raises (i := .next t) (e := .unseeded) ⟨hs, rfl⟩
  · have h := exec_of_effect (i := .next t) (s := s) ⟨hs, rfl, rfl⟩
    rw [append_eq_ofNat] at h
    cases t <;> exact h

end Sys2Proof.Machine

/-!
PROOFS. The Jump Engine: the polynomial evaluation is a sum of powers of the step map, and with the constants of JUMP
and LJUMP it is the power 2^64 and the power 2^96 (41_jump.md R182, R184, R189). The laws of the jumps follow (R190,
R193), the step map is the product with a matrix (R183), and the two commands replace the state words by what the
evaluation gives (R186, R187).
-/

namespace Sys2Proof.Machine

/-! ## The sum of powers -/

theorem getD_words (q : Quad) (i : Nat) : [q.w0, q.w1, q.w2, q.w3].getD i 0 = quadWord q i := by
  match i with
  | 0 | 1 | 2 | 3 | _ + 4 => rfl

/-- The iterations k, ..., k + n - 1 add the powers k, ..., k + n - 1 that the constant names. -/
theorem jumpLoop_eq_foldl (j v : Quad) (n k : Nat) (jacc : Quad) :
    jumpLoop j n k jacc (stepGen^[k] v) =
      (List.range' k n).foldl (fun acc k => if quadBit j k then quadXor acc (stepGen^[k] v) else acc) jacc := by
  induction n generalizing k jacc with
  | zero => rfl
  | succ n ih => rw [jumpLoop_succ, ← Function.iterate_succ_apply' stepGen, ih, List.range'_succ, List.foldl_cons]

/-- Settles O21: from the first iteration on, the loop adds the powers from 0 to 127. -/
theorem jumpPolyIsTheSumOfPowers : Obligations.JumpPolyIsTheSumOfPowers := by
  intro j v
  simp only [getD_words]
  rw [jumpPoly_eq, List.range_eq_range']
  exact jumpLoop_eq_foldl j v 128 0 quadZero

/-! ## The constants as polynomials -/

/-- A four-word vector as the number {w3, w2, w1, w0} (41_jump.md R182). -/
def quadNat (q : Quad) : Nat := (q.w3 ++ q.w2 ++ q.w1 ++ q.w0).toNat

theorem testBit_quadNat (q : Quad) (k : Nat) : (quadNat q).testBit k = quadBit q k := by
  change (q.w3 ++ q.w2 ++ q.w1 ++ q.w0).getLsbD k = (quadWord q (k / 32)).getLsbD (k % 32)
  match h : k / 32 with
  | 0 | 1 | 2 | 3 =>
    simp (disch := omega) only [BitVec.getLsbD_append, if_pos, if_neg, quadWord, Nat.mod_def, h, Nat.sub_sub,
      Nat.mul_zero, Nat.sub_zero]
  | i + 4 => exact (BitVec.getLsbD_of_ge _ _ (by omega)).trans BitVec.getLsbD_zero.symm

theorem jumpLoop_eq_stepSum {j : Quad} {p k : Nat} (h : ∀ i, p.testBit i = quadBit j (k + i)) (n : Nat) (v : Quad) :
    jumpLoop j n k quadZero v = stepSum n p v := by
  induction n generalizing p k v with
  | zero => rfl
  | succ n ih =>
    have hnext : ∀ i, (p / 2).testBit i = quadBit j (k + 1 + i) := fun i => by
      rw [Nat.testBit_div_two, h, Nat.add_right_comm, Nat.add_assoc]
    rw [jumpLoop_succ, jumpLoop_acc, ih hnext, stepSum_succ, h 0, Nat.add_zero]
    cases quadBit j k <;> simp

/-- The jump with the constant `j` is the polynomial with the bits of `j`, at the step map. -/
theorem jumpPoly_eq_stepSum (j v : Quad) : jumpPoly j v = stepSum 128 (quadNat j) v := by
  rw [jumpPoly_eq]
  exact jumpLoop_eq_stepSum (fun i => by rw [testBit_quadNat, Nat.zero_add]) 128 v

/-- The constants are the powers x^(2^64) and x^(2^96) modulo the characteristic polynomial of the step map. -/
theorem powX_jumpConsts : powX (2 ^ 64) = quadNat jumpConst ∧ powX (2 ^ 96) = quadNat ljumpConst := by decide +kernel

theorem jumpPoly_jumpConst : jumpPoly jumpConst = stepGen^[2 ^ 64] := by
  obtain ⟨hjump, -⟩ := powX_jumpConsts
  funext v
  rw [jumpPoly_eq_stepSum, ← hjump, stepSum_powX (by decide)]

theorem jumpPoly_ljumpConst : jumpPoly ljumpConst = stepGen^[2 ^ 96] := by
  obtain ⟨-, hljump⟩ := powX_jumpConsts
  funext v
  rw [jumpPoly_eq_stepSum, ← hljump, stepSum_powX (by decide)]

/-! ## The laws of the jumps -/

/-- Settles O23, with the laws that hold of every polynomial in a linear map. -/
theorem jumpsAreLinearAndCommute : Obligations.JumpsAreLinearAndCommute :=
  ⟨jumpPoly_xor, jumpPoly_comm, jumpPoly_stepGen⟩

/-- Settles O24: 2^32 times 2^64 steps are 2^96 steps. -/
theorem manyJumpsAreOneLongJump : Obligations.ManyJumpsAreOneLongJump := by
  intro v
  rw [jumpPoly_jumpConst, jumpPoly_ljumpConst, ← Function.iterate_mul, ← pow_add]

/-- The last step of the period reaches a state from the one before it. -/
theorem stepGen_surjective : Function.Surjective stepGen := fun v =>
  ⟨stepGen^[2 ^ 128 - 2] v, by rw [← Function.iterate_succ_apply' stepGen]; exact iterate_stepGen_period v⟩

theorem stepGen_bijective : Function.Bijective stepGen := ⟨stepGen_injective, stepGen_surjective⟩

/-- Settles O26: the jumps are iterates of the step map, which is injective, and surjective as it has a period. -/
theorem stepAndJumpsAreInvertible : Obligations.StepAndJumpsAreInvertible := by
  refine ⟨⟨stepGen_bijective, stepGen_eq_zero_iff⟩, ⟨?_, jumpPoly_jumpConst_eq_zero_iff⟩,
    ⟨?_, jumpPoly_ljumpConst_eq_zero_iff⟩⟩
  · rw [jumpPoly_jumpConst]
    exact stepGen_bijective.iterate _
  · rw [jumpPoly_ljumpConst]
    exact stepGen_bijective.iterate _

/-! ## The matrix of the step map -/

theorem quadBit_mul_add (q : Quad) (i : Nat) {b : Nat} (hb : b < 32) :
    quadBit q (32 * i + b) = (quadWord q i).getLsbD b := by
  rw [quadBit, Nat.mul_add_div (by decide), Nat.mul_add_mod, Nat.div_eq_of_lt hb, Nat.mod_eq_of_lt hb, Nat.add_zero]

/-- Word `i` of the state whose bits are the vector `x`. -/
def vecWord (x : Fin 128 → ZMod 2) (i : Fin 4) : Word :=
  BitVec.ofFnLE fun b : Fin 32 => x ⟨32 * i + b, by omega⟩ = 1

/-- The state of a bit vector, the inverse of `quadVec`. -/
def vecQuad (x : Fin 128 → ZMod 2) : Quad := ⟨vecWord x 0, vecWord x 1, vecWord x 2, vecWord x 3⟩

theorem decide_add_eq_one : ∀ a b : ZMod 2, decide (a + b = 1) = (decide (a = 1) ^^ decide (b = 1)) := by decide

theorem vecWord_add (x y : Fin 128 → ZMod 2) (i : Fin 4) : vecWord (x + y) i = vecWord x i ^^^ vecWord y i := by
  apply BitVec.eq_of_getElem_eq
  intro b hb
  simp [vecWord, decide_add_eq_one]

theorem vecQuad_add (x y : Fin 128 → ZMod 2) : vecQuad (x + y) = quadXor (vecQuad x) (vecQuad y) := by
  simp only [vecQuad, quadXor_mk, vecWord_add]

theorem vecWord_quadVec (q : Quad) (i : Fin 4) : vecWord (quadVec q) i = quadWord q i := by
  apply BitVec.eq_of_getElem_eq
  intro b hb
  simp [vecWord, quadVec, quadBit_mul_add q i hb, hb]

theorem vecQuad_quadVec (q : Quad) : vecQuad (quadVec q) = q := by
  simp only [vecQuad, vecWord_quadVec]
  rfl

theorem quadBit_xor (u w : Quad) (k : Nat) : quadBit (quadXor u w) k = (quadBit u k ^^ quadBit w k) := by
  unfold quadBit
  match k / 32 with
  | 0 | 1 | 2 | 3 => exact BitVec.getLsbD_xor
  | _ + 4 => simp [quadWord]

theorem quadVec_xor (u w : Quad) : quadVec (quadXor u w) = quadVec u + quadVec w := by
  have hadd : ∀ a b : Bool, (if a ^^ b then 1 else 0 : ZMod 2) = (if a then 1 else 0) + (if b then 1 else 0) := by
    decide
  funext k
  rw [quadVec, quadBit_xor, hadd]
  rfl

/-- The step map on bit vectors, linear as it respects exclusive-or (41_jump.md R183). -/
def stepLinear : (Fin 128 → ZMod 2) →ₗ[ZMod 2] Fin 128 → ZMod 2 :=
  AddMonoidHom.toZModLinearMap 2 <| AddMonoidHom.mk' (fun x => quadVec (stepGen (vecQuad x))) fun x y => by
    rw [vecQuad_add, stepGen_xor, quadVec_xor]

theorem stepLinear_quadVec (q : Quad) : stepLinear (quadVec q) = quadVec (stepGen q) := by
  change quadVec (stepGen (vecQuad (quadVec q))) = quadVec (stepGen q)
  rw [vecQuad_quadVec]

/-- Settles O25: the matrix of the step map as a linear map of bit vectors. -/
theorem stepMapIsAMatrix : Obligations.StepMapIsAMatrix :=
  ⟨LinearMap.toMatrix' stepLinear, fun q => by rw [LinearMap.toMatrix'_mulVec, stepLinear_quadVec]⟩

/-! ## The commands -/

/-- Settles O20: the effect of each command, its constant written out. -/
theorem jumpReplacesOnlyTheState : Obligations.JumpReplacesOnlyTheState := fun _ hs =>
  ⟨exec_of_effect (i := .jump) ⟨hs, rfl, rfl⟩, exec_of_effect (i := .ljump) ⟨hs, rfl, rfl⟩⟩

/-- Settles O22: the constants name the powers 2^64 and 2^96 of the step map. -/
theorem jumpIsExactlyThatManySteps : Obligations.JumpIsExactlyThatManySteps := by
  refine ⟨opcodeDecodes_of_iff fun a t d i => ?_, opcodeDecodes_of_iff fun a t d i => ?_,
    fun v => ⟨by rw [jumpPoly_jumpConst], by rw [jumpPoly_ljumpConst]⟩, fun s => ⟨fun hs => ?_, fun hs => ?_⟩⟩
  · cases t <;> simp [ofOpcode, takesA, and_comm]
  · cases t <;> simp [ofOpcode, takesA, and_comm]
  · rw [← jumpPoly_jumpConst, ← jumpPoly_ljumpConst]
    exact jumpReplacesOnlyTheState s hs
  · exact ⟨exec_of_raises (i := .jump) (e := .unseeded) ⟨hs, rfl⟩,
      exec_of_raises (i := .ljump) (e := .unseeded) ⟨hs, rfl⟩⟩

end Sys2Proof.Machine

/-!
PROOFS. The mask stage: the bits of the masked integer and the active bit count (42_formatter.md R211, R213), and the
range of the masked value (R214). With a mask, fmt selects from the shifted raw word the bits of
(0xFFFFFFFF >> SHIFT) & MASK, the word whose one bits ACTIVE counts.
-/

namespace Sys2Proof.Machine

/-! ## One bits and complements -/

theorem popcount_eq_card (v : Word) : popcount v = ((Finset.range 32).filter fun k => v.getLsbD k = true).card := by
  rw [← Nat.count_eq_card_filter_range]
  simp only [popcount, Nat.count, Bool.decide_eq_true]

theorem popcount_and_le_right (u v : Word) : popcount (u &&& v) ≤ popcount v :=
  List.countP_mono_left fun k _ h => by
    rw [BitVec.getLsbD_and, Bool.and_eq_true] at h
    exact h.2

theorem and_and_not_right (u v : Word) : u &&& v &&& ~~~v = 0 := by
  rw [BitVec.and_assoc, BitVec.and_not_self]
  exact BitVec.and_zero

/-! ## The bits of the masked integer -/

theorem getLsbD_fmt {mask : Word} (h : mask ≠ 0) (shift : BitVec 5) (raw : Word) (k : Nat) :
    (fmt mask shift raw).getLsbD k = (raw.getLsbD (k + shift.toNat) && mask.getLsbD k) := by
  rw [fmt_of_mask_ne_zero h, BitVec.getLsbD_and, BitVec.getLsbD_ushiftRight, Nat.add_comm]

/-- 0xFFFFFFFF >> n has exactly the bits up to 31 - n set. -/
theorem getLsbD_ones_ushiftRight (n k : Nat) : ((0xFFFFFFFF : Word) >>> n).getLsbD k = decide (k + n < 32) := by
  have hones : (0xFFFFFFFF : Word) = BitVec.allOnes 32 := rfl
  rw [BitVec.getLsbD_ushiftRight, hones, BitVec.getLsbD_allOnes, Nat.add_comm]

/-- Settles O28: fmt bit by bit, and the one bits of the word that ACTIVE counts. -/
theorem maskStageFormulas : Obligations.MaskStageFormulas := by
  intro mask raw shift
  refine ⟨fun h => ?_, fun h k _ => getLsbD_fmt h shift raw k, ?_⟩
  · rw [h]
    exact fmt_mask_zero shift raw
  · simp only [activeCount, popcount_eq_card, BitVec.getLsbD_and, getLsbD_ones_ushiftRight, Bool.and_eq_true,
      decide_eq_true_eq]

/-! ## The range of the masked value -/

/-- With a mask, fmt selects bits of the word that ACTIVE counts, as a shifted word has no bit above 31 - SHIFT. -/
theorem fmt_eq_and_active {mask : Word} (h : mask ≠ 0) (shift : BitVec 5) (raw : Word) :
    fmt mask shift raw = (raw >>> shift.toNat) &&& (((0xFFFFFFFF : Word) >>> shift.toNat) &&& mask) := by
  have hones : raw &&& (0xFFFFFFFF : Word) = raw := BitVec.and_allOnes
  rw [fmt_of_mask_ne_zero h, ← BitVec.and_assoc, ← BitVec.ushiftRight_and_distrib, hones]

/-- Settles O29: MASK bounds fmt as the right side of a bitwise and, and the word that ACTIVE counts bounds its highest
bit and its one bits. -/
theorem maskedValueStaysInRange : Obligations.MaskedValueStaysInRange := by
  intro mask raw shift
  obtain ⟨hpass, -, -⟩ := maskStageFormulas mask raw shift
  refine ⟨fun h => ?_, hpass⟩
  have hfmt := fmt_eq_and_active h shift raw
  refine ⟨?_, ?_, ?_, ?_⟩
  · rw [fmt_of_mask_ne_zero h, and_and_not_right]
  · rw [fmt_of_mask_ne_zero h, BitVec.toNat_and]
    exact Nat.and_le_right
  · rw [hfmt, BitVec.and_comm _ mask, ← BitVec.and_assoc, and_and_not_right]
  · rw [hfmt, activeCount]
    exact popcount_and_le_right _ _

end Sys2Proof.Machine

/-!
PROOFS. The generator never reads the tracker, the mask stage or ERR (43_tracker.md R230, 41_jump.md R188): what a
command checks and what it does to the generator, SEEDED, SEEDBUF and the host are functions of those elements alone.
-/

namespace Sys2Proof.Machine

variable {s t s' : State} {e : ErrorCode} {q : DWord} {i : Instr}

theorem sameGenerator_raise (h : sameGenerator s t) (e e' : ErrorCode) : sameGenerator (s.raise e) (t.raise e') := h

theorem sameGenerator_respond (h : sameGenerator s t) (q q' : DWord) : sameGenerator (s.respond q) (t.respond q') := h

/-- A CSRW writes the same words of SEEDBUF in both states, and else nothing that `sameGenerator` compares. -/
theorem sameGenerator_writeCsr (h : sameGenerator s t) (c : Csr) (d : Word) :
    sameGenerator (s.writeCsr c d) (t.writeCsr c d) := by
  obtain ⟨hgen, hseeded, hbuf, hhost, hloop⟩ := h
  refine ⟨by simpa, by simpa, ?_, by simpa, by simpa⟩
  cases c <;> simp [State.writeCsr, hbuf]

/-- The checks of a command read nothing but SEEDED and SEEDBUF. -/
theorem raises_of_sameGenerator (h : sameGenerator s t) (hs : Raises s e i) : Raises t e i := by
  obtain ⟨-, hseeded, hbuf, -, -⟩ := h
  cases i with
  | nop | csrr a | csrw a d | trki d | trkf d | cntr a | stclr => exact hs
  | seed => simpa only [Raises, hbuf] using hs
  | next f | jump | ljump => simpa only [Raises, hseeded] using hs

/-- A command that succeeds in one state succeeds in the other, and the results agree in what `sameGenerator`
compares. -/
theorem effect_of_sameGenerator (h : sameGenerator s t) (hs : Effect s s' q i) :
    ∃ t' q', Effect t t' q' i ∧ sameGenerator s' t' := by
  have ⟨hgen, hseeded, hbuf, hhost, hloop⟩ := h
  cases i with
  | nop | trki d | trkf d | stclr => obtain ⟨rfl, -⟩ := hs; exact ⟨_, _, ⟨rfl, rfl⟩, h⟩
  | csrr a | cntr a => obtain ⟨c, ha, rfl, -⟩ := hs; exact ⟨t, _, ⟨c, ha, rfl, rfl⟩, h⟩
  | csrw a d =>
    obtain ⟨c, ha, hro, hv, rfl, -⟩ := hs
    exact ⟨_, _, ⟨c, ha, hro, hv, rfl, rfl⟩, sameGenerator_writeCsr h c d⟩
  | seed => obtain ⟨hz, rfl, -⟩ := hs; exact ⟨_, _, ⟨hbuf ▸ hz, rfl, rfl⟩, hbuf, rfl, hbuf, hhost, hloop⟩
  | next f =>
    obtain ⟨hseed, rfl, -⟩ := hs
    refine ⟨_, _, ⟨hseeded ▸ hseed, rfl, rfl⟩, ?_⟩
    cases f <;> exact ⟨congrArg stepGen hgen, hseeded, hbuf, hhost, hloop⟩
  | jump | ljump =>
    obtain ⟨hseed, rfl, -⟩ := hs
    exact ⟨_, _, ⟨hseeded ▸ hseed, rfl, rfl⟩, congrArg (jumpPoly _) hgen, hseeded, hbuf, hhost, hloop⟩

theorem exec_of_sameGenerator (h : sameGenerator s t) (i : Instr) :
    ∃ s' t', exec i s = .next s' ∧ exec i t = .next t' ∧ sameGenerator s' t' := by
  obtain ⟨e, he, hs⟩ | ⟨s', q, he, hs⟩ := exec_cases i s
  · exact ⟨_, _, hs, exec_of_raises (raises_of_sameGenerator h he), sameGenerator_raise h e e⟩
  · obtain ⟨t', q', he', h'⟩ := effect_of_sameGenerator h he
    exact ⟨_, _, hs, exec_of_effect he', sameGenerator_respond h' q q'⟩

/-- A command word decodes in both states to the same command, or is illegal in both. -/
theorem runCommand_of_sameGenerator (h : sameGenerator s t) (c : Command) :
    ∃ s' t', runCommand c s = .next s' ∧ runCommand c t = .next t' ∧ sameGenerator s' t' := by
  cases hd : decode c with
  | illegal why => exact ⟨_, _, runCommand_illegal hd s, runCommand_illegal hd t, sameGenerator_raise h _ _⟩
  | instr i =>
    rw [runCommand_instr hd, runCommand_instr hd]
    exact exec_of_sameGenerator h i

/-- A step takes the same host event in both states and keeps the relation, or is refused in both. -/
theorem step_of_sameGenerator (h : sameGenerator s t) :
    (∃ s' t', step s = .next s' ∧ step t = .next t' ∧ sameGenerator s' t') ∨
    (step s = .refused .overlappingHost ∧ step t = .refused .overlappingHost) := by
  have ⟨hgen, hseeded, hbuf, hhost, hloop⟩ := h
  rw [step_eq_turn, step_eq_turn]
  cases hs : s.host with
  | nil =>
    rw [turn_idle hs, turn_idle (hhost ▸ hs)]
    exact .inl ⟨_, _, rfl, rfl, hgen, hseeded, hbuf, hloop, hloop⟩
  | cons e rest =>
    rw [turn_event hs, turn_event (hhost ▸ hs)]
    cases e with
    | issue c =>
      exact .inl (runCommand_of_sameGenerator (s := { s with host := rest }) (t := { t with host := rest })
        ⟨hgen, hseeded, hbuf, rfl, hloop⟩ c)
    | reset | resetDuring c => exact .inl ⟨_, _, rfl, rfl, rfl, rfl, rfl, rfl, hloop⟩
    | overlap c => exact .inr ⟨rfl, rfl⟩

theorem run_succ_of_refused {M : Host.Core} {s : M.State} {r : M.Refusal} (h : M.step s = .refused r) (n : Nat) :
    M.run (n + 1) s = .refused r := by rw [Host.Core.run, h]

/-- Settles O44, by induction on the number of steps with `step_of_sameGenerator`. -/
theorem generatorIsIsolatedFromTheTracker : Obligations.GeneratorIsIsolatedFromTheTracker := by
  intro n
  induction n with
  | zero => exact fun s t h => .inl ⟨s, t, rfl, rfl, h⟩
  | succ n ih =>
    intro s t h
    obtain ⟨s', t', hs, ht, h'⟩ | ⟨hs, ht⟩ := step_of_sameGenerator h
    · rw [run_succ_of_step (M := core) hs, run_succ_of_step (M := core) ht]
      exact ih s' t' h'
    · exact .inr ⟨run_succ_of_refused (M := core) hs n, run_succ_of_refused (M := core) ht n⟩

end Sys2Proof.Machine

/-!
PROOFS. flt_lt is the order of the numbers that binary32 patterns encode (43_tracker.md R238): the number of a magnitude
grows with the magnitude as an integer, and the sign mirrors the order.
-/

namespace Sys2Proof.Machine

/-! ## The fields of a pattern as arithmetic on it -/

theorem fltExponent_toNat (x : Word) : (fltExponent x).toNat = x.toNat / 2 ^ 23 % 2 ^ 8 := by
  rw [fltExponent, BitVec.extractLsb'_toNat, Nat.shiftRight_eq_div_pow]

theorem fltFraction_toNat (x : Word) : (fltFraction x).toNat = x.toNat % 2 ^ 23 := by
  rw [fltFraction, BitVec.extractLsb'_toNat, Nat.shiftRight_zero]

theorem fltMagnitude_toNat (x : Word) : (fltMagnitude x).toNat = x.toNat % 2 ^ 31 := by
  rw [fltMagnitude, BitVec.extractLsb'_toNat, Nat.shiftRight_zero]

theorem fltSign_eq (x : Word) : fltSign x = decide (2 ^ 31 ≤ x.toNat) := BitVec.msb_eq_decide x

theorem fltIsNaN_iff (x : Word) : fltIsNaN x = true ↔ x.toNat / 2 ^ 23 % 2 ^ 8 = 255 ∧ x.toNat % 2 ^ 23 ≠ 0 := by
  rw [fltIsNaN, Bool.and_eq_true, beq_iff_eq, bne_iff_ne, ne_eq, ← BitVec.toNat_inj, ← BitVec.toNat_inj,
    fltExponent_toNat, fltFraction_toNat]
  rfl

/-! ## The number of a magnitude -/

/-- The number that the magnitude bits `m` encode, in units of 2^-149: `fltUnits` of the pattern with the sign 0. -/
def magnitudeUnits (m : Nat) : Nat :=
  if m / 2 ^ 23 = 0 then m % 2 ^ 23 else (2 ^ 23 + m % 2 ^ 23) * 2 ^ (m / 2 ^ 23 - 1)

theorem fltUnits_eq (x : Word) :
    fltUnits x = if fltSign x then -(magnitudeUnits (fltMagnitude x).toNat : Int)
      else magnitudeUnits (fltMagnitude x).toNat := by
  have hexp : x.toNat % 2 ^ 31 / 2 ^ 23 = x.toNat / 2 ^ 23 % 2 ^ 8 := by omega
  have hfrac : x.toNat % 2 ^ 31 % 2 ^ 23 = x.toNat % 2 ^ 23 := by omega
  rw [fltSign_eq, magnitudeUnits, fltMagnitude_toNat, hexp, hfrac, fltUnits]
  by_cases hsign : x.toNat < 2 ^ 31
  · rw [if_pos hsign, decide_eq_false (not_le.2 hsign), if_neg Bool.false_ne_true]
  · rw [if_neg hsign, decide_eq_true (not_lt.1 hsign), if_pos rfl]

/-- The next magnitude has the next fraction, or the next exponent and the fraction 0: either way a larger number. -/
theorem magnitudeUnits_lt_succ (m : Nat) : magnitudeUnits m < magnitudeUnits (m + 1) := by
  unfold magnitudeUnits
  by_cases hcarry : m % 2 ^ 23 = 2 ^ 23 - 1
  · have hexp : (m + 1) / 2 ^ 23 = m / 2 ^ 23 + 1 := by omega
    have hfrac : (m + 1) % 2 ^ 23 = 0 := by omega
    rw [hexp, hfrac, hcarry]
    cases m / 2 ^ 23 with
    | zero => simp
    | succ e =>
      have hpos := Nat.two_pow_pos e
      rw [if_neg e.succ_ne_zero, if_neg (e + 1).succ_ne_zero, Nat.add_sub_cancel, Nat.add_sub_cancel, Nat.pow_succ 2 e]
      omega
  · have hexp : (m + 1) / 2 ^ 23 = m / 2 ^ 23 := by omega
    have hfrac : (m + 1) % 2 ^ 23 = m % 2 ^ 23 + 1 := by omega
    rw [hexp, hfrac]
    split
    · exact Nat.lt_succ_self _
    · exact Nat.mul_lt_mul_of_pos_right (by omega) (Nat.two_pow_pos _)

theorem magnitudeUnits_strictMono : StrictMono magnitudeUnits := strictMono_nat_of_lt_succ magnitudeUnits_lt_succ

theorem magnitudeUnits_eq_zero_iff (m : Nat) : magnitudeUnits m = 0 ↔ m = 0 :=
  magnitudeUnits_strictMono.injective.eq_iff' rfl

theorem fltIsZero_iff (x : Word) : fltIsZero x = true ↔ magnitudeUnits (fltMagnitude x).toNat = 0 := by
  rw [magnitudeUnits_eq_zero_iff, fltIsZero, beq_iff_eq, ← BitVec.toNat_inj]
  rfl

/-! ## The order -/

/-- Where neither pattern is a NaN, flt_lt compares the numbers (43_tracker.md R238). -/
theorem fltLt_iff {a b : Word} (ha : fltIsNaN a = false) (hb : fltIsNaN b = false) :
    fltLt a b = true ↔ fltUnits a < fltUnits b := by
  have hlt (x y : Word) : (fltMagnitude x).ult (fltMagnitude y) = true ↔
      magnitudeUnits (fltMagnitude x).toNat < magnitudeUnits (fltMagnitude y).toNat := by
    rw [BitVec.ult_iff_lt, BitVec.lt_def, magnitudeUnits_strictMono.lt_iff_lt]
  rw [fltUnits_eq, fltUnits_eq, fltLt, if_neg (by simp [ha, hb])]
  by_cases h0 : (fltIsZero a && fltIsZero b) = true
  · rw [if_pos h0]
    rw [Bool.and_eq_true, fltIsZero_iff, fltIsZero_iff] at h0
    simp [h0]
  · rw [if_neg h0]
    rw [Bool.and_eq_true, fltIsZero_iff, fltIsZero_iff] at h0
    cases fltSign a <;> cases fltSign b
    case false.false => simp [hlt]
    case false.true => simp
    case true.false => simp; omega
    case true.true => simp [hlt]

theorem fltLt_eq_true_iff {a b : Word} :
    fltLt a b = true ↔ fltIsNaN a = false ∧ fltIsNaN b = false ∧ fltUnits a < fltUnits b := by
  cases ha : fltIsNaN a with
  | true => simp [fltLt_nan_left ha]
  | false =>
    cases hb : fltIsNaN b with
    | true => simp [fltLt_nan_right hb]
    | false => simp [fltLt_iff ha hb]

theorem eq_of_sign_magnitude {a b : Word} (hs : fltSign a = fltSign b) (hm : fltMagnitude a = fltMagnitude b) :
    a = b := by
  rw [fltSign_eq, fltSign_eq, decide_eq_decide] at hs
  rw [← BitVec.toNat_inj, fltMagnitude_toNat, fltMagnitude_toNat] at hm
  apply BitVec.eq_of_toNat_eq
  omega

/-- Two patterns with the same number are equal or the two zeros (43_tracker.md R235). -/
theorem eq_or_zeros_of_fltUnits_eq {a b : Word} (h : fltUnits a = fltUnits b) :
    a = b ∨ (a = 0x00000000#32 ∧ b = 0x80000000#32) ∨ (a = 0x80000000#32 ∧ b = 0x00000000#32) := by
  have same (hu : magnitudeUnits (fltMagnitude a).toNat = magnitudeUnits (fltMagnitude b).toNat) :
      fltMagnitude a = fltMagnitude b := BitVec.eq_of_toNat_eq (magnitudeUnits_strictMono.injective hu)
  have zero (x : Word) (hu : magnitudeUnits (fltMagnitude x).toNat = 0) : fltMagnitude x = 0 :=
    BitVec.eq_of_toNat_eq ((magnitudeUnits_eq_zero_iff _).1 hu)
  rw [fltUnits_eq, fltUnits_eq] at h
  cases ha : fltSign a <;> cases hb : fltSign b <;> simp only [ha, hb, if_true, if_false, Bool.false_eq_true] at h
  case false.false => exact .inl (eq_of_sign_magnitude (ha.trans hb.symm) (same (by omega)))
  case true.true => exact .inl (eq_of_sign_magnitude (ha.trans hb.symm) (same (by omega)))
  case false.true =>
    exact .inr (.inl ⟨eq_of_sign_magnitude ha (zero a (by omega)), eq_of_sign_magnitude hb (zero b (by omega))⟩)
  case true.false =>
    exact .inr (.inr ⟨eq_of_sign_magnitude ha (zero a (by omega)), eq_of_sign_magnitude hb (zero b (by omega))⟩)

/-- Settles O32: `fltIsNaN_iff`, `fltLt_nan_left` with `fltLt_nan_right`, and `fltLt_iff`. -/
theorem floatCompareIsTheOrderOfValues : Obligations.FloatCompareIsTheOrderOfValues := by
  refine fun a b => ⟨fltIsNaN_iff a, ?_, fltLt_iff⟩
  rintro (ha | hb)
  · exact fltLt_nan_left ha b
  · exact fltLt_nan_right hb a

end Sys2Proof.Machine

/-!
PROOFS. What the tracker holds after a list of samples (43_tracker.md R231, R232, R234, R235): its counters count the
samples by their bits, and its min and max are samples. Both domains take a sample in the same way, each under its own
order, so that the order of the samples does not matter where that order tells them apart (R242).
-/

namespace Sys2Proof.Machine

/-! ## One register under a strict order -/

/-- The update rule of IMIN, IMAX, FMIN and FMAX: a sample replaces the register where it lies before it in the order
`lt`, which for a max is the reverse of the comparison (43_tracker.md R232, R235). -/
def replaceIf (lt : Word → Word → Bool) (r v : Word) : Word := if lt v r then v else r

/-- A comparison that is irreflexive and transitive. -/
structure StrictOrder (lt : Word → Word → Bool) : Prop where
  irrefl (a : Word) : lt a a = false
  trans {a b c : Word} : lt a b = true → lt b c = true → lt a c = true

/-- The order `lt` places one of `x` and `y` before the other, or they are equal, or one of them is unordered with every
word, as a NaN is. -/
def Separates (lt : Word → Word → Bool) (x y : Word) : Prop :=
  x = y ∨ lt x y = true ∨ lt y x = true ∨
    (∀ z, lt x z = false ∧ lt z x = false) ∨ (∀ z, lt y z = false ∧ lt z y = false)

variable {lt : Word → Word → Bool} {x y : Word}

theorem Separates.swap (h : Separates lt x y) : Separates (Function.swap lt) x y := by
  obtain h | h | h | h | h := h
  · exact .inl h
  · exact .inr (.inr (.inl h))
  · exact .inr (.inl h)
  · exact .inr (.inr (.inr (.inl fun z => (h z).symm)))
  · exact .inr (.inr (.inr (.inr fun z => (h z).symm)))

namespace StrictOrder

theorem swap (h : StrictOrder lt) : StrictOrder (Function.swap lt) := ⟨h.irrefl, fun hab hbc => h.trans hbc hab⟩

theorem asymm (h : StrictOrder lt) (hxy : lt x y = true) : lt y x = false :=
  Bool.eq_false_iff.2 fun hyx => Bool.false_ne_true ((h.irrefl x).symm.trans (h.trans hxy hyx))

/-- Of two samples, the one that lies before the other decides, whichever comes first. -/
theorem replaceIf_comm_of_lt (h : StrictOrder lt) (hxy : lt x y = true) (r : Word) :
    replaceIf lt (replaceIf lt r x) y = replaceIf lt (replaceIf lt r y) x := by
  cases hx : lt x r with
  | true => cases hy : lt y r <;> simp [replaceIf, hx, hy, hxy, h.asymm hxy]
  | false =>
    have hy : lt y r = false := Bool.eq_false_iff.2 fun hy => by simp [h.trans hxy hy] at hx
    simp [replaceIf, hx, hy]

theorem replaceIf_comm (h : StrictOrder lt) (hxy : Separates lt x y) (r : Word) :
    replaceIf lt (replaceIf lt r x) y = replaceIf lt (replaceIf lt r y) x := by
  obtain rfl | hlt | hlt | hun | hun := hxy
  · rfl
  · exact h.replaceIf_comm_of_lt hlt r
  · exact (h.replaceIf_comm_of_lt hlt r).symm
  · simp [replaceIf, hun]
  · simp [replaceIf, hun]

/-- Under a total order, what the register holds at the end is its first value or a sample, and
none of these lies before it. -/
theorem foldl_replaceIf (h : StrictOrder lt) (htotal : ∀ a b, a = b ∨ lt a b = true ∨ lt b a = true)
    (vs : List Word) (r : Word) :
    vs.foldl (replaceIf lt) r ∈ r :: vs ∧ ∀ u ∈ r :: vs, lt u (vs.foldl (replaceIf lt) r) = false := by
  induction vs generalizing r with
  | nil => simp [h.irrefl]
  | cons v vs ih =>
    obtain ⟨hmem, hleast⟩ := ih (replaceIf lt r v)
    rw [List.foldl_cons]
    generalize vs.foldl (replaceIf lt) (replaceIf lt r v) = m at hmem hleast ⊢
    cases hv : lt v r with
    | true =>
      rw [replaceIf, if_pos hv] at hmem hleast
      have hr : lt r m = false := Bool.eq_false_iff.2 fun hr => by simp [h.trans hv hr] at hleast
      exact ⟨List.mem_cons_of_mem r hmem, List.forall_mem_cons.2 ⟨hr, hleast⟩⟩
    | false =>
      rw [replaceIf, hv, if_neg Bool.false_ne_true] at hmem hleast
      obtain ⟨hr, hvs⟩ := List.forall_mem_cons.1 hleast
      have hvm : lt v m = false := by
        obtain rfl | hlt | hlt := htotal v r
        · exact hr
        · simp [hv] at hlt
        · exact Bool.eq_false_iff.2 fun hvm => by simp [h.trans hlt hvm] at hr
      refine ⟨?_, List.forall_mem_cons.2 ⟨hr, List.forall_mem_cons.2 ⟨hvm, hvs⟩⟩⟩
      exact List.mem_cons.2 ((List.mem_cons.1 hmem).imp_right (List.mem_cons_of_mem v))

end StrictOrder

/-! ## One domain -/

/-- A domain after the sample `v`, its min and max under the order `lt` (43_tracker.md R232, R236). -/
def sampleBy (lt : Word → Word → Bool) (t : Tracker) (v : Word) : Tracker :=
  { countSample t v with min := replaceIf lt t.min v, max := replaceIf (Function.swap lt) t.max v }

theorem sampleBy_set (lt : Word → Word → Bool) (t : Tracker) (v : Word) (k : Fin 32) :
    (sampleBy lt t v).set[k] = if v.getLsbD k then t.set[k] + 1 else t.set[k] := countSample_set t v k k.isLt

theorem sampleBy_clr (lt : Word → Word → Bool) (t : Tracker) (v : Word) (k : Fin 32) :
    (sampleBy lt t v).clr[k] = if v.getLsbD k then t.clr[k] else t.clr[k] + 1 := countSample_clr t v k k.isLt

/-- Both domains take a sample by `sampleBy`: the integer one under the unsigned order, the float one under flt_lt. -/
theorem trackInt_eq (s : State) (v : Word) : s.trackInt v = { s with int := sampleBy BitVec.ult s.int v } := rfl

theorem trackFlt_eq (s : State) (v : Word) : s.trackFlt v = { s with flt := sampleBy fltLt s.flt v } := rfl

theorem sampleBy_comm (h : StrictOrder lt) (hxy : Separates lt x y) (t : Tracker) :
    sampleBy lt (sampleBy lt t x) y = sampleBy lt (sampleBy lt t y) x := by
  refine tracker_ext (fun k => ?_) (fun k => ?_) (h.replaceIf_comm hxy t.min) (h.swap.replaceIf_comm hxy.swap t.max)
  · simp only [sampleBy_set]
    cases x.getLsbD k <;> cases y.getLsbD k <;> rfl
  · simp only [sampleBy_clr]
    cases x.getLsbD k <;> cases y.getLsbD k <;> rfl

/-- The set counter of a bit counts the samples with the bit, modulo 2^64 (43_tracker.md R231). -/
theorem foldl_sampleBy_set (lt : Word → Word → Bool) (vs : List Word) (t : Tracker) (k : Fin 32) :
    (vs.foldl (sampleBy lt) t).set[k] = t.set[k] + BitVec.ofNat 64 (vs.countP fun v => v.getLsbD k) := by
  induction vs generalizing t with
  | nil => simp
  | cons v vs ih =>
    rw [List.foldl_cons, ih, sampleBy_set, List.countP_cons]
    cases v.getLsbD k <;> simp [BitVec.ofNat_add, BitVec.add_assoc, BitVec.add_comm 1#64]

/-- The clear counter of a bit counts the samples without the bit, modulo 2^64 (43_tracker.md R231). -/
theorem foldl_sampleBy_clr (lt : Word → Word → Bool) (vs : List Word) (t : Tracker) (k : Fin 32) :
    (vs.foldl (sampleBy lt) t).clr[k] = t.clr[k] + BitVec.ofNat 64 (vs.countP fun v => !v.getLsbD k) := by
  induction vs generalizing t with
  | nil => simp
  | cons v vs ih =>
    rw [List.foldl_cons, ih, sampleBy_clr, List.countP_cons]
    cases v.getLsbD k <;> simp [BitVec.ofNat_add, BitVec.add_assoc, BitVec.add_comm 1#64]

theorem foldl_sampleBy_min (lt : Word → Word → Bool) (vs : List Word) (t : Tracker) :
    (vs.foldl (sampleBy lt) t).min = vs.foldl (replaceIf lt) t.min :=
  (List.foldl_hom Tracker.min fun _ _ => rfl).symm

theorem foldl_sampleBy_max (lt : Word → Word → Bool) (vs : List Word) (t : Tracker) :
    (vs.foldl (sampleBy lt) t).max = vs.foldl (replaceIf (Function.swap lt)) t.max :=
  (List.foldl_hom Tracker.max fun _ _ => rfl).symm

variable {vs ws : List Word}

theorem foldl_sampleBy_set_perm (lt : Word → Word → Bool) (hp : vs.Perm ws) (t : Tracker) :
    (vs.foldl (sampleBy lt) t).set = (ws.foldl (sampleBy lt) t).set :=
  counterFile_ext fun k => by rw [foldl_sampleBy_set, foldl_sampleBy_set, hp.countP_eq]

theorem foldl_sampleBy_clr_perm (lt : Word → Word → Bool) (hp : vs.Perm ws) (t : Tracker) :
    (vs.foldl (sampleBy lt) t).clr = (ws.foldl (sampleBy lt) t).clr :=
  counterFile_ext fun k => by rw [foldl_sampleBy_clr, foldl_sampleBy_clr, hp.countP_eq]

theorem foldl_sampleBy_perm (h : StrictOrder lt) (hp : vs.Perm ws) (hsep : ∀ x ∈ vs, ∀ y ∈ vs, Separates lt x y)
    (t : Tracker) : vs.foldl (sampleBy lt) t = ws.foldl (sampleBy lt) t :=
  hp.foldl_eq' (fun x hx y hy t => sampleBy_comm h (hsep x hx y hy) t) t

/-! ## The two orders -/

theorem strictOrder_ult : StrictOrder (BitVec.ult (n := 32)) where
  irrefl a := by simp [BitVec.ult]
  trans := by
    simp only [BitVec.ult_iff_lt]
    exact BitVec.lt_trans

theorem ult_total (a b : Word) : a = b ∨ a.ult b = true ∨ b.ult a = true := by
  rw [BitVec.ult_iff_lt, BitVec.ult_iff_lt, BitVec.lt_def, BitVec.lt_def, ← BitVec.toNat_inj]
  omega

theorem separates_ult (a b : Word) : Separates BitVec.ult a b := (ult_total a b).imp_right (·.imp_right .inl)

theorem strictOrder_fltLt : StrictOrder fltLt where
  irrefl := fltLt_irrefl
  trans hab hbc := by
    obtain ⟨ha, -, hlt⟩ := fltLt_eq_true_iff.1 hab
    obtain ⟨-, hc, hlt'⟩ := fltLt_eq_true_iff.1 hbc
    exact fltLt_eq_true_iff.2 ⟨ha, hc, hlt.trans hlt'⟩

/-- flt_lt tells all patterns apart but the two zeros (43_tracker.md R235, R242). -/
theorem separates_fltLt {a b : Word} (hzeros : ¬ ((a = 0x00000000#32 ∧ b = 0x80000000#32) ∨
    (a = 0x80000000#32 ∧ b = 0x00000000#32))) : Separates fltLt a b := by
  cases ha : fltIsNaN a with
  | true => exact .inr (.inr (.inr (.inl fun z => ⟨fltLt_nan_left ha z, fltLt_nan_right ha z⟩)))
  | false =>
    cases hb : fltIsNaN b with
    | true => exact .inr (.inr (.inr (.inr fun z => ⟨fltLt_nan_left hb z, fltLt_nan_right hb z⟩)))
    | false =>
      obtain hlt | heq | hlt := lt_trichotomy (fltUnits a) (fltUnits b)
      · exact .inr (.inl ((fltLt_iff ha hb).2 hlt))
      · exact .inl ((eq_or_zeros_of_fltUnits_eq heq).resolve_right hzeros)
      · exact .inr (.inr (.inl ((fltLt_iff hb ha).2 hlt)))

/-! ## Lists of samples -/

theorem foldl_trackInt (vs : List Word) (s : State) :
    vs.foldl State.trackInt s = { s with int := vs.foldl (sampleBy BitVec.ult) s.int } :=
  List.foldl_hom (init := s.int) (fun t => { s with int := t }) fun t v => trackInt_eq { s with int := t } v

theorem foldl_trackFlt (vs : List Word) (s : State) :
    vs.foldl State.trackFlt s = { s with flt := vs.foldl (sampleBy fltLt) s.flt } :=
  List.foldl_hom (init := s.flt) (fun t => { s with flt := t }) fun t v => trackFlt_eq { s with flt := t } v

/-- Settles O36: two samples that the order of their domain tells apart may be exchanged, and the counters count. -/
theorem trackingIsOrderIndependent : Obligations.TrackingIsOrderIndependent := by
  intro s vs ws hp
  rw [foldl_trackInt, foldl_trackInt, foldl_trackFlt, foldl_trackFlt]
  refine ⟨?_, foldl_sampleBy_set_perm fltLt hp s.flt, foldl_sampleBy_clr_perm fltLt hp s.flt, fun hzeros => ?_⟩
  · rw [foldl_sampleBy_perm strictOrder_ult hp fun x _ y _ => separates_ult x y]
  · rw [foldl_sampleBy_perm strictOrder_fltLt hp fun x hx y hy => separates_fltLt ?_]
    rintro (⟨rfl, rfl⟩ | ⟨rfl, rfl⟩)
    · exact hzeros ⟨hx, hy⟩
    · exact hzeros ⟨hy, hx⟩

/-! ## The integer statistics of a run -/

theorem replaceIf_of_identity {r v : Word} (h : v = r ∨ lt v r = true) : replaceIf lt r v = v := by
  obtain rfl | hlt := h
  · exact ite_self v
  · exact if_pos hlt

/-- From a first value that no sample lies behind, the register ends at a sample that no other sample lies before. -/
theorem StrictOrder.foldl_replaceIf_identity (h : StrictOrder lt)
    (htotal : ∀ a b, a = b ∨ lt a b = true ∨ lt b a = true) {r : Word} (hr : ∀ v, v = r ∨ lt v r = true)
    {vs : List Word} (hvs : vs ≠ []) :
    vs.foldl (replaceIf lt) r ∈ vs ∧ ∀ v ∈ vs, lt v (vs.foldl (replaceIf lt) r) = false := by
  cases vs with
  | nil => exact absurd rfl hvs
  | cons v vs =>
    rw [List.foldl_cons, replaceIf_of_identity (hr v)]
    exact h.foldl_replaceIf htotal vs v

/-- Every word is a sample that IMIN and IMAX at their identities take (43_tracker.md R234). -/
theorem ult_identities (v : Word) :
    (v = 0xFFFFFFFF#32 ∨ v.ult 0xFFFFFFFF#32 = true) ∧ (v = 0x00000000#32 ∨ (0x00000000#32).ult v = true) := by
  rw [BitVec.ult_iff_lt, BitVec.ult_iff_lt, BitVec.lt_def, BitVec.lt_def, ← BitVec.toNat_inj, ← BitVec.toNat_inj,
    BitVec.toNat_ofNat, BitVec.toNat_ofNat]
  omega

/-- A host that issues TRKI for each of a list of samples: the domain takes them one by one. -/
theorem run_trki (vs : List Word) (s : State) (hh : s.host = issueAll (vs.map .trki)) :
    ∃ t, core.run vs.length s = .next t ∧ t.int = vs.foldl (sampleBy BitVec.ult) s.int := by
  induction vs generalizing s with
  | nil => exact ⟨s, rfl, rfl⟩
  | cons v vs ih =>
    have hexec := exec_of_effect (i := .trki v) (s := { s with host := issueAll (vs.map .trki) }) ⟨rfl, rfl⟩
    obtain ⟨t, hrun, hint⟩ := ih ((State.trackInt { s with host := issueAll (vs.map .trki) } v).respond 0) rfl
    exact ⟨t, (run_issueAll hh hexec vs.length).trans hrun, hint⟩

/-- Reset and STCLR both leave the integer domain empty. -/
theorem step_empties_int {s : State} {first : HostEvent} {rest : List HostEvent} (hh : s.host = first :: rest)
    (hf : first = .reset ∨ first = .issue (encode .stclr)) :
    ∃ t, step s = .next t ∧ t.int = Tracker.emptyInt ∧ t.host = rest := by
  obtain rfl | rfl := hf
  · exact ⟨_, turn_event hh, rfl, rfl⟩
  · exact ⟨_, stepRunsTheDecodedCommand s _ rest .stclr hh (decode_encode .stclr), rfl, rfl⟩

/-- A run of TRKI after reset or STCLR: the samples fill an empty domain. -/
theorem run_statistics {s : State} {first : HostEvent} {vs : List Word}
    (hh : s.host = first :: issueAll (vs.map .trki)) (hf : first = .reset ∨ first = .issue (encode .stclr)) :
    ∃ t, core.run (vs.length + 1) s = .next t ∧ t.int = vs.foldl (sampleBy BitVec.ult) Tracker.emptyInt := by
  obtain ⟨s₀, hstep, hempty, hhost⟩ := step_empties_int hh hf
  obtain ⟨t, hrun, hint⟩ := run_trki vs s₀ hhost
  exact ⟨t, (run_succ_of_step (M := core) hstep vs.length).trans hrun, hempty ▸ hint⟩

/-- Settles O35: the counters count the samples, and IMIN and IMAX go from their identities to samples. -/
theorem integerStatisticsAreThoseOfTheSamples : Obligations.IntegerStatisticsAreThoseOfTheSamples := by
  intro s first vs hf
  obtain ⟨t, hrun, hint⟩ := run_statistics (s := { s with host := first :: issueAll (vs.map .trki) }) rfl hf
  have hmin : t.int.min = vs.foldl (replaceIf BitVec.ult) 0xFFFFFFFF := by rw [hint, foldl_sampleBy_min]; rfl
  have hmax : t.int.max = vs.foldl (replaceIf (Function.swap BitVec.ult)) 0 := by rw [hint, foldl_sampleBy_max]; rfl
  have hzero (k : Fin 32) : CounterFile.zero[k] = 0 := counterFile_zero k k.isLt
  refine ⟨t, hrun, fun k => ⟨?_, ?_⟩, ?_, fun hvs => ?_⟩
  · rw [hint, foldl_sampleBy_set, Tracker.emptyInt, hzero]
    exact BitVec.zero_add _
  · rw [hint, foldl_sampleBy_clr, Tracker.emptyInt, hzero]
    exact BitVec.zero_add _
  · rintro rfl
    exact ⟨hmin, hmax⟩
  · obtain ⟨hminMem, hminLe⟩ :=
      strictOrder_ult.foldl_replaceIf_identity ult_total (fun v => (ult_identities v).1) hvs
    obtain ⟨hmaxMem, hmaxLe⟩ :=
      strictOrder_ult.swap.foldl_replaceIf_identity (fun a b => (ult_total a b).imp_right Or.symm)
        (fun v => (ult_identities v).2) hvs
    rw [hmin, hmax]
    refine ⟨hminMem, hmaxMem, fun v hv => ⟨?_, ?_⟩⟩
    · simpa [BitVec.ult] using hminLe v hv
    · simpa [BitVec.ult, Function.swap] using hmaxLe v hv

end Sys2Proof.Machine

/-!
PROOFS. The tracker's commands TRKI, TRKF, CNTR and STCLR (43_tracker.md R233, R236, R239, R241), each by its effect.
-/

namespace Sys2Proof.Machine

/-! ## TRKI and TRKF -/

/-- A sample's counters as numbers: one of each pair goes up by one modulo 2^64 (43_tracker.md R231). -/
theorem sampleBy_counters_toNat (lt : Word → Word → Bool) (t : Tracker) (v : Word) (k : Fin 32) :
    (sampleBy lt t v).set[k].toNat = (if v.getLsbD k then (t.set[k].toNat + 1) % 2 ^ 64 else t.set[k].toNat) ∧
    (sampleBy lt t v).clr[k].toNat = (if v.getLsbD k then t.clr[k].toNat else (t.clr[k].toNat + 1) % 2 ^ 64) := by
  rw [sampleBy_set, sampleBy_clr]
  cases v.getLsbD k
  · exact ⟨rfl, BitVec.toNat_add _ _⟩
  · exact ⟨BitVec.toNat_add _ _, rfl⟩

theorem replaceIf_ult_toNat (r v : Word) : (replaceIf BitVec.ult r v).toNat = min v.toNat r.toNat := by
  simp only [replaceIf, BitVec.ult_iff_lt, BitVec.lt_def]
  split <;> omega

theorem replaceIf_swap_ult_toNat (r v : Word) :
    (replaceIf (Function.swap BitVec.ult) r v).toNat = max v.toNat r.toNat := by
  simp only [replaceIf, Function.swap, BitVec.ult_iff_lt, BitVec.lt_def]
  split <;> omega

/-- Settles O30: TRKI takes its sample by `sampleBy` under the unsigned order. -/
theorem trkiCountsAnIntegerSample : Obligations.TrkiCountsAnIntegerSample := by
  refine ⟨opcodeDecodes_of_iff fun a t d i => ?_, fun s d => ⟨(s.trackInt d).respond 0, rfl, rfl, ?_, ?_, ?_⟩⟩
  · cases t <;> simp [ofOpcode, takesA, and_comm]
  · exact sampleBy_counters_toNat BitVec.ult s.int d
  · exact replaceIf_ult_toNat s.int.min d
  · exact replaceIf_swap_ult_toNat s.int.max d

/-- Settles O31: TRKF takes its sample by `sampleBy` under flt_lt, for which a NaN is unordered. -/
theorem trkfCountsAFloatSample : Obligations.TrkfCountsAFloatSample := by
  refine ⟨opcodeDecodes_of_iff fun a t d i => ?_,
    fun s d => ⟨(s.trackFlt d).respond 0, rfl, rfl, ?_, rfl, rfl, fun hnan => ⟨?_, ?_⟩⟩⟩
  · cases t <;> simp [ofOpcode, takesA, and_comm]
  · exact sampleBy_counters_toNat fltLt s.flt d
  · exact if_neg (ne_true_of_eq_false (fltLt_nan_left hnan s.flt.min))
  · exact if_neg (ne_true_of_eq_false (fltLt_nan_right hnan s.flt.max))

/-! ## CNTR -/

/-- The four files of 32 counters stand at the indices 0, 32, 64 and 96 (10_state.md R51). -/
theorem counterAt_files : ∀ k : Fin 32,
    counterAt (BitVec.ofNat 8 k.val) = some ⟨.int, .set, k⟩ ∧
    counterAt (BitVec.ofNat 8 (32 + k.val)) = some ⟨.int, .clear, k⟩ ∧
    counterAt (BitVec.ofNat 8 (64 + k.val)) = some ⟨.flt, .set, k⟩ ∧
    counterAt (BitVec.ofNat 8 (96 + k.val)) = some ⟨.flt, .clear, k⟩ := by decide

theorem counterAt_of_ge {a : BitVec 8} (h : 128 ≤ a.toNat) : counterAt a = none :=
  (counterAt_eq_none_iff a).2 ((BitVec.msb_eq_decide a).trans (decide_eq_true h))

theorem exec_cntr_of_counterAt {a : BitVec 8} {c : CounterId} (h : counterAt a = some c) (s : State) :
    exec (.cntr a) s = .next (succeeded s (s.counter c)) := exec_of_effect (i := .cntr a) ⟨c, h, rfl, rfl⟩

/-- Settles O33: the index names a counter of `counterAt_files`, or none from 128 on. -/
theorem cntrReadsTheNamedCounter : Obligations.CntrReadsTheNamedCounter := by
  refine ⟨opcodeDecodes_of_iff fun a t d i => ?_, fun s => ⟨fun k => ?_, fun a ha => ?_⟩⟩
  · cases t <;> simp [ofOpcode, takesA]
  · obtain ⟨hseti, hclri, hsetf, hclrf⟩ := counterAt_files k
    exact ⟨exec_cntr_of_counterAt hseti s, exec_cntr_of_counterAt hclri s, exec_cntr_of_counterAt hsetf s,
      exec_cntr_of_counterAt hclrf s⟩
  · exact exec_of_raises (i := .cntr a) (e := .badAddr) ⟨counterAt_of_ge ha, rfl⟩

/-! ## STCLR -/

/-- Settles O34: STCLR leaves both domains empty, and is one of the idempotent commands. -/
theorem stclrClearsTheTracker : Obligations.StclrClearsTheTracker := by
  have hzero (k : Fin 32) : CounterFile.zero[k] = 0 := counterFile_zero k k.isLt
  refine ⟨opcodeDecodes_of_iff fun a t d i => ?_, fun s t ht => ?_, fun s => ⟨s.clearTracker.respond 0, rfl, rfl,
    fun k => ⟨hzero k, hzero k, hzero k, hzero k⟩, rfl, rfl, rfl, rfl⟩⟩
  · cases t <;> simp [ofOpcode, takesA, and_comm]
  · obtain ⟨hrepeat, -⟩ := repeatingAnIdempotentCommand
    exact hrepeat .stclr s t ht (.inr (.inr (.inl rfl)))

end Sys2Proof.Machine

/-!
PROOFS. The control commands NOP, CSRR and CSRW (44_control.md R270, R272, R274, R276): each mapped address names its
register, no other address names one, and the two registers that check a value accept exactly the values of R276.
-/

namespace Sys2Proof.Machine

/-! ## NOP -/

/-- Settles O12: NOP's words are those with A and T clear, and its effect is none. -/
theorem nopOnlyResponds : Obligations.NopOnlyResponds := by
  refine ⟨opcodeDecodes_of_iff fun a t d i => ?_, fun s => exec_of_effect (i := .nop) ⟨rfl, rfl⟩⟩
  cases t <;> simp [ofOpcode, takesA, and_comm]

/-! ## Register addresses -/

/-- The addresses 0x05..0x07 and 0x14..0xFF are those of no register (10_state.md R44). -/
theorem csrAt_of_unmapped {a : BitVec 8} (h : (5 ≤ a.toNat ∧ a.toNat ≤ 7) ∨ 0x14 ≤ a.toNat) : csrAt a = none := by
  rw [Option.eq_none_iff_forall_ne_some]
  intro c hc
  rw [← csrAddress_of_csrAt a c hc] at h
  cases c <;> revert h <;> decide

/-- The read-only registers in the order of their addresses (10_state.md R44). -/
def readOnlyCsrs : List Csr := [.active, .status, .state0, .state1, .state2, .state3, .imin, .imax, .fmin, .fmax]

theorem csrReadOnly_of_mem : ∀ c ∈ readOnlyCsrs, csrReadOnly c = true := by decide

theorem csrAt_of_readOnly_address {a : BitVec 8}
    (h : a.toNat ∈ [0x02, 0x04, 0x0C, 0x0D, 0x0E, 0x0F, 0x10, 0x11, 0x12, 0x13]) :
    ∃ c, csrAt a = some c ∧ csrReadOnly c = true := by
  have haddresses : [0x02, 0x04, 0x0C, 0x0D, 0x0E, 0x0F, 0x10, 0x11, 0x12, 0x13] =
      readOnlyCsrs.map fun c => (csrAddress c).toNat := rfl
  rw [haddresses] at h
  obtain ⟨c, hc, ha⟩ := List.mem_map.1 h
  rw [← BitVec.eq_of_toNat_eq ha]
  exact ⟨c, csrAt_csrAddress c, csrReadOnly_of_mem c hc⟩

/-! ## CSRR -/

theorem exec_csrr_csrAddress (c : Csr) (s : State) :
    exec (.csrr (csrAddress c)) s = .next (succeeded s ((s.readCsr c).setWidth 64)) :=
  exec_of_effect (i := .csrr (csrAddress c)) ⟨c, csrAt_csrAddress c, rfl, rfl⟩

theorem readCsr_shift_setWidth (s : State) : (s.readCsr .shift).setWidth 64 = BitVec.ofNat 64 s.shift.toNat := by
  have hlt := s.shift.isLt
  apply BitVec.eq_of_toNat_eq
  simp only [State.readCsr, BitVec.toNat_setWidth, BitVec.toNat_ofNat]
  omega

/-- ACTIVE is at most 32, so its 32 bits hold the count (42_formatter.md R213). -/
theorem readCsr_active_setWidth (s : State) : (s.readCsr .active).setWidth 64 = BitVec.ofNat 64
    ((Finset.range 32).filter fun k => k + s.shift.toNat < 32 ∧ s.mask.getLsbD k = true).card := by
  obtain ⟨-, -, hactive⟩ := maskStageFormulas s.mask 0 s.shift
  have hle : activeCount s.mask s.shift ≤ 32 := popcount_le _
  rw [← hactive]
  apply BitVec.eq_of_toNat_eq
  simp only [State.readCsr, BitVec.toNat_setWidth, BitVec.toNat_ofNat]
  omega

theorem readCsr_ctrl_setWidth (s : State) : (s.readCsr .ctrl).setWidth 64 = if s.tsrc then 1 else 0 := by
  rw [State.readCsr]
  cases s.tsrc <;> rfl

/-- STATUS holds ERR from bit 4 on and SEEDED in bit 0 (10_state.md R40). -/
theorem readCsr_status_setWidth (s : State) :
    (s.readCsr .status).setWidth 64 = BitVec.ofNat 64 (16 * s.err.toNat + s.seeded.toNat) := by
  have key : ∀ (err : BitVec 4) (seeded : Bool),
      (statusWord err seeded).setWidth 64 = BitVec.ofNat 64 (16 * err.toNat + seeded.toNat) := by decide
  exact key s.err s.seeded

/-- Settles O13: CSRR of a register's address gives `readCsr`, whose four composed values are the numbers stated. -/
theorem csrrReadsTheNamedRegister : Obligations.CsrrReadsTheNamedRegister := by
  refine ⟨opcodeDecodes_of_iff fun a t d i => ?_, fun s => ?_⟩
  · cases t <;> simp [ofOpcode, takesA]
  · have hread (c : Csr) := exec_csrr_csrAddress c s
    rw [← readCsr_shift_setWidth, ← readCsr_active_setWidth, ← readCsr_ctrl_setWidth, ← readCsr_status_setWidth]
    exact ⟨hread .mask, hread .shift, hread .active, hread .ctrl, hread .status, hread .seedbuf0, hread .seedbuf1,
      hread .seedbuf2, hread .seedbuf3, hread .state0, hread .state1, hread .state2, hread .state3, hread .imin,
      hread .imax, hread .fmin, hread .fmax,
      fun a ha => exec_of_raises (i := .csrr a) (e := .badAddr) ⟨csrAt_of_unmapped ha, rfl⟩⟩

/-! ## CSRW -/

theorem exec_csrw_of_accepts {c : Csr} {d : Word} (hro : csrReadOnly c = false) (hv : csrAccepts c d = true)
    (s : State) : exec (.csrw (csrAddress c) d) s = .next (succeeded (s.writeCsr c d) 0) :=
  exec_of_effect (i := .csrw (csrAddress c) d) ⟨c, csrAt_csrAddress c, hro, hv, rfl, rfl⟩

theorem exec_csrw_of_not_accepts {c : Csr} {d : Word} (hro : csrReadOnly c = false) (hv : ¬ csrAccepts c d = true)
    (s : State) : exec (.csrw (csrAddress c) d) s = .next (failed s 4) :=
  exec_of_raises (i := .csrw (csrAddress c) d) (e := .badValue)
    (.inr ⟨c, csrAt_csrAddress c, .inr ⟨hro, eq_false_of_ne_true hv, rfl⟩⟩)

theorem csrAccepts_shift_iff (d : Word) : csrAccepts .shift d = true ↔ d.toNat ≤ 31 := by
  simp [csrAccepts, BitVec.ule]

/-- CTRL accepts a value whose bits 31..1 are clear, which is 0 or 1 (44_control.md R276). -/
theorem csrAccepts_ctrl_iff (d : Word) : csrAccepts .ctrl d = true ↔ d = 0 ∨ d = 1 := by
  simp only [csrAccepts, beq_iff_eq, ← BitVec.toNat_inj, BitVec.toNat_ushiftRight, Nat.shiftRight_eq_div_pow]
  simp only [BitVec.ofNat_eq_ofNat, BitVec.toNat_ofNat]
  omega

theorem exec_csrw_shift (d : Word) (s : State) :
    exec (.csrw (csrAddress .shift) d) s = .next (if d.toNat ≤ 31
      then succeeded { s with shift := BitVec.ofNat 5 d.toNat } 0 else failed s 4) := by
  split
  · next hle => exact exec_csrw_of_accepts rfl ((csrAccepts_shift_iff d).2 hle) s
  · next hle => exact exec_csrw_of_not_accepts rfl ((csrAccepts_shift_iff d).not.2 hle) s

theorem exec_csrw_ctrl (d : Word) (s : State) :
    exec (.csrw (csrAddress .ctrl) d) s = .next (if d = 0 then succeeded { s with tsrc := false } 0
      else if d = 1 then succeeded { s with tsrc := true } 0 else failed s 4) := by
  split
  · next h0 =>
    subst h0
    exact exec_csrw_of_accepts rfl rfl s
  · next h0 =>
    split
    · next h1 =>
      subst h1
      exact exec_csrw_of_accepts rfl rfl s
    · next h1 => exact exec_csrw_of_not_accepts rfl ((csrAccepts_ctrl_iff d).not.2 (not_or.2 ⟨h0, h1⟩)) s

/-- Settles O14: CSRW of a register's address takes `writeCsr` or raises the error of the check that fails. -/
theorem csrwWritesOnlyTheNamedRegister : Obligations.CsrwWritesOnlyTheNamedRegister := by
  refine ⟨opcodeDecodes_of_iff fun a t d i => ?_, fun s d => ⟨exec_csrw_of_accepts (c := .mask) rfl rfl s,
    exec_csrw_shift d s, exec_csrw_ctrl d s, exec_csrw_of_accepts (c := .seedbuf0) rfl rfl s,
    exec_csrw_of_accepts (c := .seedbuf1) rfl rfl s, exec_csrw_of_accepts (c := .seedbuf2) rfl rfl s,
    exec_csrw_of_accepts (c := .seedbuf3) rfl rfl s, fun a ha => ?_, fun a ha => ?_⟩⟩
  · cases t <;> simp [ofOpcode, takesA]
  · obtain ⟨c, hc, hro⟩ := csrAt_of_readOnly_address ha
    exact exec_of_raises (i := .csrw a d) (e := .readOnly) (.inr ⟨c, hc, .inl ⟨hro, rfl⟩⟩)
  · exact exec_of_raises (i := .csrw a d) (e := .badAddr) (.inl ⟨csrAt_of_unmapped ha, rfl⟩)

end Sys2Proof.Machine

/-!
PROOFS. How a turn ends: the block answers a host that waits and never stops (60_exceptions.md R303), a command that
fails changes ERR only (R302), each command has its own errors (R304, R305), and a host that loops over NEXT without end
is an infinite run (R317).
-/

namespace Sys2Proof.Machine

variable {s s' t : State} {e : ErrorCode} {q : DWord} {i : Instr}

/-! ## A host that waits -/

/-- Settles O7: the turn without an event is `beginLoop`. -/
theorem stepWithoutCommandHoldsState : Obligations.StepWithoutCommandHoldsState :=
  ⟨fun _ hh => turn_idle hh, fun _ hh hl => (turn_idle hh).trans (congrArg _ (beginLoop_of_done hh hl))⟩

theorem exec_responds (i : Instr) (s : State) :
    ∃ t r, exec i s = .next t ∧ t.host = s.host ∧ t.loop = s.loop ∧ t.response = some r := by
  obtain ⟨e, -, h⟩ | ⟨s', q, he, h⟩ := exec_cases i s
  · exact ⟨_, _, h, rfl, rfl, rfl⟩
  · obtain ⟨-, hhost, hloop⟩ := effect_err_host he
    exact ⟨_, _, h, hhost, hloop, rfl⟩

/-- Every word the host presents gets a response, and leaves what the host does next alone (30_encoding.md R110). -/
theorem runCommand_responds (c : Command) (s : State) :
    ∃ t r, runCommand c s = .next t ∧ t.host = s.host ∧ t.loop = s.loop ∧ t.response = some r := by
  cases hd : decode c with
  | illegal why => exact ⟨_, _, runCommand_illegal hd s, rfl, rfl, rfl⟩
  | instr i =>
    rw [runCommand_instr hd]
    exact exec_responds i s

/-- A host waits on where its events are among those it had. -/
theorem hostWaits_of_subset (h : hostWaits s) (hsub : t.host ++ t.loop ⊆ s.host ++ s.loop) : hostWaits t :=
  fun e he => h e (hsub he)

/-- Settles O11: only an overlapping command is refused, and every other event is answered. -/
theorem waitingHostIsAlwaysServed : Obligations.WaitingHostIsAlwaysServed := by
  intro s hw
  cases hh : s.host with
  | nil => exact ⟨_, turn_idle hh, rfl, rfl, hostWaits_of_subset hw (by simp), nofun⟩
  | cons first rest =>
    have hwaits {t : State} (hhost : t.host = rest) (hloop : t.loop = s.loop) : hostWaits t :=
      hostWaits_of_subset hw (by simp [hhost, hloop, hh])
    cases first with
    | issue c =>
      obtain ⟨t, r, ht, hhost, hloop, hr⟩ := runCommand_responds c { s with host := rest }
      exact ⟨t, (step_issue hh).trans ht, hhost, hloop, hwaits hhost hloop, fun _ _ _ => ⟨r, hr⟩⟩
    | reset | resetDuring c => exact ⟨_, turn_event hh, rfl, rfl, hwaits rfl rfl, nofun⟩
    | overlap c => exact absurd rfl (hw (.overlap c) (by simp [hh]) c)

/-! ## The errors of a command -/

/-- Settles O37: a response whose code is not OK is that of `raise`. -/
theorem failingCommandChangesOnlyErr : Obligations.FailingCommandChangesOnlyErr := by
  intro s t c rest r hh hs hr hst
  obtain ⟨_, -, rfl⟩ | ⟨_, e, -, -, rfl⟩ | ⟨_, s', q, -, -, rfl⟩ := step_issue_cases hh hs <;> cases hr
  · rfl
  · rfl
  · exact absurd rfl hst

theorem errorCode_mem_possibleCodes (h : Raises s e i) : errorCode e ∈ possibleCodes i := by
  cases i with
  | nop | trki d | trkf d | stclr => cases h
  | csrr a | seed | next f | jump | ljump | cntr a => obtain ⟨-, rfl⟩ := h; simp [possibleCodes, errorCode]
  | csrw a d => obtain ⟨-, rfl⟩ | ⟨_, -, ⟨-, rfl⟩ | ⟨-, -, rfl⟩⟩ := h <;> simp [possibleCodes, errorCode]

theorem ok_mem_possibleCodes (i : Instr) : okCode ∈ possibleCodes i := by
  cases i <;> exact List.mem_cons_self

theorem illegal_not_mem_possibleCodes (i : Instr) : errorCode .illegal ∉ possibleCodes i := by
  cases i <;> simp [possibleCodes, errorCode]

theorem exec_code_mem (h : exec i s = .next t) : ∃ r, t.response = some r ∧ r.st ∈ possibleCodes i := by
  obtain ⟨e, he, rfl⟩ | ⟨s', q, -, rfl⟩ := exec_next_cases h
  · exact ⟨_, rfl, errorCode_mem_possibleCodes he⟩
  · exact ⟨_, rfl, ok_mem_possibleCodes i⟩

/-- Settles O39: a word that decodes is answered with a code of its command's list, and ILLEGAL is on no list. -/
theorem eachCommandHasItsOwnErrors : Obligations.EachCommandHasItsOwnErrors := by
  refine ⟨fun _ _ _ => exec_code_mem, fun s t c rest hh hs ⟨q, hq⟩ => ?_⟩
  rw [illegalWord_iff, ← exists_decode_iff]
  rintro ⟨i, hd⟩
  obtain ⟨r, hr, hmem⟩ := exec_code_mem ((stepRunsTheDecodedCommand s c rest i hh hd).symm.trans hs)
  cases hq.symm.trans hr
  exact illegal_not_mem_possibleCodes i hmem

/-! ## The well-formed commands -/

theorem wellFormed_of_effect (h : Effect s s' q i) : i.WellFormed := by
  cases i with
  | nop | seed | next f | jump | ljump | trki d | trkf d | stclr => rfl
  | csrr a => obtain ⟨c, ha, -⟩ := h; simp [Instr.WellFormed, Instr.wf, ha]
  | csrw a d => obtain ⟨c, ha, hro, hv, -⟩ := h; simp [Instr.WellFormed, Instr.wf, ha, hro, hv]
  | cntr a =>
    obtain ⟨c, ha, -⟩ := h
    have hbit : ¬ a.getLsbD 7 = true := (counterAt_eq_none_iff a).not.1 (ha ▸ nofun)
    simpa [Instr.WellFormed, Instr.wf] using hbit

/-- Where SEED, NEXT and the jumps find what they need, an error is one of the operands (60_exceptions.md R305). -/
theorem not_wellFormed_of_raises (hs : s.seeded = true) (hbuf : s.seedbuf ≠ quadZero) (h : Raises s e i) :
    ¬ i.WellFormed := by
  cases i with
  | nop | trki d | trkf d | stclr => cases h
  | csrr a => obtain ⟨ha, -⟩ := h; simp [Instr.WellFormed, Instr.wf, ha]
  | csrw a d => obtain ⟨ha, -⟩ | ⟨c, ha, ⟨hro, -⟩ | ⟨-, hv, -⟩⟩ := h <;> simp [Instr.WellFormed, Instr.wf, *]
  | seed => obtain ⟨hz, -⟩ := h; exact absurd ((allZero_iff _).1 hz) hbuf
  | next f | jump | ljump => obtain ⟨hn, -⟩ := h; cases hs.symm.trans hn
  | cntr a => obtain ⟨ha, -⟩ := h; simpa [Instr.WellFormed, Instr.wf] using (counterAt_eq_none_iff a).1 ha

/-- Settles O40: an effect needs well-formed operands, and an error here comes from operands that are not. -/
theorem wellFormedCommandsSucceed : Obligations.WellFormedCommandsSucceed := by
  intro i s hs hbuf
  obtain ⟨e, he, h⟩ | ⟨s', q, he, h⟩ := exec_cases i s
  · exact ⟨_, _, h, rfl, iff_of_false (not_wellFormed_of_raises hs hbuf he) (errorCode_ne_ok e)⟩
  · exact ⟨_, _, h, rfl, iff_of_true (wellFormed_of_effect he) rfl⟩

/-! ## The endless loop over NEXT -/

/-- A host that waits never ends a run: there is a next state for ever (60_exceptions.md R303, R317). -/
theorem exists_infinite_run (hw : hostWaits s) :
    ∃ run : Nat → State, run 0 = s ∧ ∀ n, step (run n) = .next (run (n + 1)) := by
  have hserved (u : { u // hostWaits u }) : ∃ v : { v // hostWaits v }, step u = .next v := by
    obtain ⟨v, hv, -, -, hwv, -⟩ := waitingHostIsAlwaysServed u u.2
    exact ⟨⟨v, hwv⟩, hv⟩
  choose next hnext using hserved
  refine ⟨fun n => next^[n] ⟨s, hw⟩, rfl, fun n => ?_⟩
  simpa only [Function.iterate_succ_apply'] using hnext (next^[n] ⟨s, hw⟩)

/-- What holds of the state `u` when a host's loop over NEXT (`f = false`) or NEXT.T, begun in `s`, has gone round `n`
times: `n` outputs have been taken, and the mask stage and ERR are as they were. -/
structure NextLoop (s : State) (f : Bool) (n : Nat) (u : State) : Prop where
  seeded : u.seeded = true
  host : u.host = []
  loop : u.loop = [.issue (encode (.next f))]
  gen : u.gen = stepGen^[n] s.gen
  mask : u.mask = s.mask
  shift : u.shift = s.shift
  err : u.err = s.err

/-- The response to NEXT in a state whose generator holds `v`: {masked, raw} (40_generator.md R160). -/
def nextResponse (s : State) (v : Quad) : Response := ⟨okCode, fmt s.mask s.shift (outGen v) ++ outGen v⟩

/-- One round of the loop: the host goes back to its start, and NEXT takes output number `n`. -/
theorem NextLoop.round {f : Bool} {n : Nat} {u : State} (h : NextLoop s f n u) :
    step u = .next u.beginLoop ∧ ∃ v, step u.beginLoop = .next v ∧ NextLoop s f (n + 1) v ∧
      v.response = some (nextResponse s (stepGen^[n] s.gen)) := by
  obtain ⟨hseeded, hhost, hloop, hgen, hmask, hshift, herr⟩ := h
  have hexec := exec_of_effect (i := .next f) (s := { u with host := [] }) ⟨hseeded, rfl, rfl⟩
  have hstep := stepRunsTheDecodedCommand u.beginLoop _ [] _ hloop (decode_encode (.next f))
  refine ⟨turn_idle hhost, _, hstep.trans hexec, ?_, ?_⟩
  · have hgen' : stepGen u.gen = stepGen^[n + 1] s.gen := by rw [hgen, Function.iterate_succ_apply']
    cases f <;> exact ⟨hseeded, rfl, hloop, hgen', hmask, hshift, herr⟩
  · simp [nextResponse, hgen, hmask, hshift]

/-- Two steps of a run are one round of the loop. -/
theorem NextLoop.run_round {f : Bool} {n : Nat} {run : Nat → State} (hrun : ∀ n, step (run n) = .next (run (n + 1)))
    (h : NextLoop s f n (run (2 * n))) :
    run (2 * n + 1) = (run (2 * n)).beginLoop ∧ NextLoop s f (n + 1) (run (2 * n + 2)) ∧
      (run (2 * n + 2)).response = some (nextResponse s (stepGen^[n] s.gen)) := by
  obtain ⟨hbegin, v, hnext, hv⟩ := h.round
  have hodd : run (2 * n + 1) = (run (2 * n)).beginLoop := Host.Outcome.next.inj ((hrun _).symm.trans hbegin)
  rw [← hodd, hrun] at hnext
  cases hnext
  exact ⟨hodd, hv⟩

/-- Settles O49: the infinite run of a host that waits, in which every second state has finished a round of the loop. -/
theorem endlessNextLoopIsAnInfiniteRun : Obligations.EndlessNextLoopIsAnInfiniteRun := by
  intro s f hseeded hhost hloop
  have hw : hostWaits s := by simp [hostWaits, hhost, hloop]
  obtain ⟨run, hzero, hrun⟩ := exists_infinite_run hw
  have hrounds (n : Nat) : NextLoop s f n (run (2 * n)) := by
    induction n with
    | zero =>
      rw [hzero]
      exact ⟨hseeded, hhost, hloop, rfl, rfl, rfl, rfl⟩
    | succ n ih =>
      obtain ⟨-, hnext, -⟩ := ih.run_round hrun
      exact hnext
  refine ⟨run, hzero, hrun, fun n => ⟨(hrounds n).gen, ?_, ?_⟩⟩
  · obtain ⟨k, rfl | rfl⟩ := Nat.even_or_odd' n
    · exact (hrounds k).err
    · obtain ⟨hodd, -, -⟩ := (hrounds k).run_round hrun
      rw [hodd]
      exact (hrounds k).err
  · obtain ⟨-, -, hresponse⟩ := (hrounds n).run_round hrun
    exact hresponse

end Sys2Proof.Machine

/-!
PROOFS. Reset, and what depends on it: it puts every element at its reset value, also during a command
(70_reset_and_hazards.md R340, R341), it alone unseeds the generator (R342), and of the well-formed commands only NEXT,
JUMP and LJUMP need a seed (R344). A host that does not wait for a response is refused (R351).
-/

namespace Sys2Proof.Machine

variable {s s' t : State} {c : Command} {rest : List HostEvent} {e : ErrorCode} {q : DWord} {i : Instr}

/-! ## Reset and the refused host -/

/-- Both kinds of reset leave the state of `State.reset`, before a host that goes on. -/
theorem step_reset (hh : s.host = .reset :: rest ∨ ∃ c, s.host = .resetDuring c :: rest) :
    step s = .next { State.reset with host := rest, loop := s.loop } := by
  obtain hh | ⟨c, hh⟩ := hh
  · exact turn_event hh
  · exact turn_event hh

/-- Settles O8: the values of `State.reset` are those of 10_state.md R57. -/
theorem resetGivesEveryElementItsResetValue : Obligations.ResetGivesEveryElementItsResetValue := fun _ _ hh =>
  step_reset hh

/-- Settles O10: the turn takes the event, and serving it is the refusal. -/
theorem overlappingHostIsRefused : Obligations.OverlappingHostIsRefused := fun _ _ _ hh => turn_event hh

/-! ## Which events change SEEDED -/

/-- SEEDED stays where the command is not SEED, which loads the buffer (10_state.md R34). -/
theorem effect_seeded (h : Effect s s' q i) : s'.seeded = s.seeded ∨ (i = .seed ∧ s' = s.loadSeed) := by
  obtain ⟨-, hseeded, -⟩ := writesOnlyItsElements_of_effect h
  by_cases heq : s'.seeded = s.seeded
  · exact .inl heq
  · obtain rfl := hseeded heq
    obtain ⟨-, hload, -⟩ := h
    exact .inr ⟨rfl, hload⟩

/-- A step with a command word leaves SEEDED alone, or the word is SEED and the generator takes the buffer. -/
theorem step_issue_seeded (hh : s.host = .issue c :: rest) (hs : step s = .next t) :
    t.seeded = s.seeded ∨ (decode c = .instr .seed ∧ t.seeded = true ∧ t.gen = s.seedbuf) := by
  obtain ⟨_, -, rfl⟩ | ⟨_, _, -, -, rfl⟩ | ⟨_, _, _, hd, he, rfl⟩ := step_issue_cases hh hs
  · exact .inl rfl
  · exact .inl rfl
  · obtain heq | ⟨rfl, rfl⟩ := effect_seeded he
    · exact .inl heq
    · exact .inr ⟨hd, rfl, rfl⟩

/-- Settles O42: a command keeps SEEDED or is SEED, and a reset gives SEEDED its reset value. -/
theorem noCommandUnseedsTheGenerator : Obligations.NoCommandUnseedsTheGenerator := by
  refine ⟨fun s t c rest hh hs => ?_, fun s t rest hh hs => ?_⟩
  · obtain heq | ⟨hd, hseeded, hgen⟩ := step_issue_seeded hh hs
    · exact ⟨heq.trans, fun hf ht => absurd (hf.symm.trans (heq.symm.trans ht)) Bool.false_ne_true⟩
    · exact ⟨fun _ => hseeded, fun _ _ => ⟨hd, hgen⟩⟩
  · obtain rfl := Host.Outcome.next.inj ((step_reset hh).symm.trans hs)
    rfl

/-! ## The commands that need a seed -/

/-- SEEDED is checked by NEXT, JUMP and LJUMP only: any other command's error is there whatever SEEDED holds. -/
theorem raises_withSeeded (hnext : ∀ f, i ≠ .next f) (hjump : i ≠ .jump) (hljump : i ≠ .ljump) (h : Raises s e i)
    (b : Bool) : Raises { s with seeded := b } e i := by
  cases i with
  | next f => exact absurd rfl (hnext f)
  | jump => exact absurd rfl hjump
  | ljump => exact absurd rfl hljump
  | nop | csrr a | csrw a d | seed | trki d | trkf d | cntr a | stclr => exact h

/-- Without NEXT and the jumps, an error is one of the operands as soon as the buffer holds a seed. -/
theorem not_wellFormed_of_raises_seedless (hnext : ∀ f, i ≠ .next f) (hjump : i ≠ .jump) (hljump : i ≠ .ljump)
    (hbuf : s.seedbuf ≠ quadZero) (h : Raises s e i) : ¬ i.WellFormed :=
  not_wellFormed_of_raises (s := { s with seeded := true }) rfl hbuf (raises_withSeeded hnext hjump hljump h true)

/-- Settles O19: without a seed the three generator commands raise UNSEEDED, and reset leaves a buffer that is not zero,
so that an error of any other command is one of its operands. -/
theorem onlyGeneratorCommandsNeedASeed : Obligations.OnlyGeneratorCommandsNeedASeed := by
  refine ⟨fun s f hs => ?_, fun i hwf hnext hjump hljump => ?_⟩
  · exact ⟨exec_of_raises (i := .next f) (e := .unseeded) ⟨hs, rfl⟩,
      exec_of_raises (i := .jump) (e := .unseeded) ⟨hs, rfl⟩,
      exec_of_raises (i := .ljump) (e := .unseeded) ⟨hs, rfl⟩⟩
  · obtain ⟨e, he, -⟩ | ⟨s', q, he, h⟩ := exec_cases i State.reset
    · have hbuf : State.reset.seedbuf ≠ quadZero := by decide
      exact absurd hwf (not_wellFormed_of_raises_seedless hnext hjump hljump hbuf he)
    · obtain ⟨herr, -, -⟩ := effect_err_host he
      exact ⟨_, _, h, rfl, rfl, herr⟩

end Sys2Proof.Machine
